-- ==== Sys2Proof/Word.lean ====
section
/-! DEFINITION. The words of the ADC frame decoder core: the input byte, the accumulator's 32-bit word, the
16-bit status value, and the timestamp. -/

namespace Sys2Proof

/-- A byte of the input stream (R31, R43). Bit 0 is the least significant bit (R14). -/
abbrev Byte := BitVec 8

/-- The 32-bit word of `acc` and of a data value (R17, R40). -/
abbrev Word := BitVec 32

/-- The 16-bit value of a status frame (R53). -/
abbrev Half := BitVec 16

/-- A timestamp: "opaque ordered values" (R11, R33). DESIGN CHOICE (log entry 2), safe: the spec leaves the width TW
open and says any totally ordered type serves; the block stores and copies timestamps and never computes on them. -/
abbrev Time := Nat

end Sys2Proof
end

