-- ==== Sys2Proof/Config.lean ====
section
/-! DEFINITION. What is fixed for the life of the block: the constants of R8 and R12, and the configuration
parameters of R9 and R10, which the spec leaves OPEN and which are therefore opaque here. -/

namespace Sys2Proof

/-- `CATS`, the four frame category codes (R8). -/
def Config.cats : List Byte := [0x01, 0x02, 0x03, 0x05]

/-- `CR`, the terminator (R12). -/
def Config.cr : Byte := 0x0D

/-- `MARKER` (R12). -/
def Config.marker : Byte := 0x80

/-- The highest legal flag code: the legal masked values 0x00 to 0x50 are the codes 0 to 5 (R12, R55). -/
def Config.maxFlag : BitVec 3 := 5

/-- The label table of one category: for each of the sixteen field identifiers its name, or `none` where the label
is not defined. `LABEL_NAME` is defined exactly where `LABEL_DEFINED` is true (R9), so one table holds both. -/
abbrev LabelTable := Vector (Option String) 16

/-- The Label Tables: "category -> (field_id -> name)", keyed by the four categories of `CATS` (R9, R83). -/
structure LabelTables where
  cat01 : LabelTable
  cat02 : LabelTable
  cat03 : LabelTable
  cat05 : LabelTable
deriving DecidableEq, Repr, Inhabited

/-- The configuration parameters of the block (R9, R10). They are constant for the life of the block (R27, R112). -/
structure Params where
  /-- `STATUS_SOH`, 8 bits. Nothing says that it is a member of `CATS` (R10). -/
  statusSoh : Byte
  /-- `STATUS_LABEL`, 7 bits (R10). -/
  statusLabel : BitVec 7
  /-- `LABEL_DEFINED` and `LABEL_NAME` (R9). -/
  labels : LabelTables
deriving DecidableEq, Repr, Inhabited

/-- The value of `STATUS_SOH`: OPEN (R10, D13), so nothing can be proved of it. Log entry 1. -/
opaque Config.statusSoh : Byte

/-- The value of `STATUS_LABEL`: OPEN (R10, D13). Log entry 1. -/
opaque Config.statusLabel : BitVec 7

/-- The contents of the Label Tables: OPEN (R9, D14). Log entry 1. -/
opaque Config.labelTables : LabelTables

/-- The configuration the block is built with. `State.reset` starts with it; every statement over all states holds
for every other configuration too. -/
def Config.params : Params where
  statusSoh := Config.statusSoh
  statusLabel := Config.statusLabel
  labels := Config.labelTables

end Sys2Proof
end

