-- ==== Sys2Proof/Machine/Operands.lean ====
section
/-! DEFINITION. How a byte is read in each position: the byte classes, the hex alphabet, the bit-fields of a header
byte, the status signature and the label lookup. -/

namespace Sys2Proof

/-- A frame-start byte: `b ∈ CATS` (R8, R51). -/
def isCat (b : Byte) : Bool := Config.cats.contains b

/-- `is_hex(b)` (R50). -/
def isHex (b : Byte) : Bool :=
  (decide (0x30#8 ≤ b) && decide (b ≤ 0x39#8)) || (decide (0x41#8 ≤ b) && decide (b ≤ 0x46#8))

/-- `nib(b)`, the value of a hex character (R50). Every use stands behind `isHex b`. -/
def nib (b : Byte) : BitVec 4 :=
  if b ≤ 0x39#8 then (b - 0x30#8).setWidth 4 else (b - 0x37#8).setWidth 4

/-- The marker bit `H[7]` of a header byte (R55). -/
def markerBit (b : Byte) : Bool := b.getLsbD 7

/-- The low seven bits `H[6:0]` of a header byte. -/
def lowBits (b : Byte) : BitVec 7 := b.extractLsb' 0 7

/-- The flag code `H[6:4]` of a header byte (R55). -/
def flagCode (b : Byte) : BitVec 3 := b.extractLsb' 4 3

/-- The label code `H[3:0]` of a header byte (R55). -/
def labelCode (b : Byte) : BitVec 4 := b.extractLsb' 0 4

/-- A data header byte with marker set: `0x80 | (flag << 4) | label` (R55, R62). -/
def headerByte (flag : BitVec 3) (label : BitVec 4) : Byte :=
  Config.marker ||| (flag.setWidth 8 <<< 4) ||| label.setWidth 8

/-- `STATUS_HDR = STATUS_LABEL | 0x80` (R10). -/
def statusHdr (p : Params) : Byte := p.statusLabel.setWidth 8 ||| Config.marker

/-- `recognize(cat, b)`, the status signature test: exact on all 8 bits, under the category STATUS_SOH alone
(R57, R77). -/
def recognize (p : Params) (cat b : Byte) : Bool := cat == p.statusSoh && b == statusHdr p

/-- The label table of a category; a value that is no category has none (R83). -/
def labelTable (t : LabelTables) (c : Byte) : Option LabelTable :=
  if c = 0x01#8 then some t.cat01
  else if c = 0x02#8 then some t.cat02
  else if c = 0x03#8 then some t.cat03
  else if c = 0x05#8 then some t.cat05
  else none

/-- `lookup(c, l)`: the label's name, or `none` for NotFound (R83). -/
def lookup (p : Params) (c : Byte) (l : BitVec 4) : Option String :=
  match labelTable p.labels c with
  | some t => t[l.toNat]'l.isLt
  | none => none

/-- `LABEL_DEFINED(c, l)` (R9). -/
def labelDefined (p : Params) (c : Byte) (l : BitVec 4) : Bool := (lookup p c l).isSome

/-- The presentation name of a flag code, paired by position (R13, R56; the spec's own pairing D10). The block puts out
the code alone; the illegal codes 6 and 7 have no name. -/
def flagName (f : BitVec 3) : Option String :=
  ["valid", "above", "below", "invalid(+)", "invalid(−)", "invalid"][f.toNat]?

end Sys2Proof
end

