-- ==== Sys2Proof/Syntax.lean ====
section
/-! DEFINITION. The instructions of the model, one constructor per row of spec/opcode_table.json, with the values
the decoder reads a row from: the input ports and the context. -/

namespace Sys2Proof

/-- The Stream Controller state (R18). -/
inductive Ctrl where
  /-- no open packet -/
  | idle
  /-- a packet is in progress -/
  | opened
deriving DecidableEq, Repr

/-- Which sub-decoder the open packet uses (R21). Encoding 3 is never written and has no constructor (log entry 9). -/
inductive SubDecoder where
  | none
  | status
  | data
deriving DecidableEq, Repr

/-- The values at the input ports in one step (R31). -/
structure PortIn where
  rst : Bool
  inValid : Bool
  inByte : Byte
  inTs : Time
  inTe : Time
deriving DecidableEq, Repr

/-- What the decode map of R59 reads beside the byte: the state before the step that selects a row. -/
structure Context where
  ctrl : Ctrl
  cat : Byte
  sub : SubDecoder
  pos : BitVec 4
deriving DecidableEq, Repr

/-- One row of the opcode table: what one step of the block does in one context. `ts` and `te` are the start and end
time of the byte record. A forwarded byte's row carries its `te` (R66, R71). -/
inductive Instr where
  /-- BYTE_IN: a byte record is presented (R63). -/
  | byteIn (b : Byte) (ts te : Time)
  /-- FS_01: the frame-start byte 0x01 (R64). -/
  | fs01 (ts : Time)
  /-- FS_02: the frame-start byte 0x02 (R64). -/
  | fs02 (ts : Time)
  /-- FS_03: the frame-start byte 0x03 (R64). -/
  | fs03 (ts : Time)
  /-- FS_05: the frame-start byte 0x05 (R64). -/
  | fs05 (ts : Time)
  /-- IDLE_DROP: a byte with no open packet (R65). -/
  | idleDrop (b : Byte)
  /-- FORWARD: a byte for the open packet (R66). -/
  | forward (b : Byte) (te : Time)
  /-- HDR_STATUS: the status signature byte (R79). -/
  | hdrStatus (te : Time)
  /-- HDR_NOMARKER: a header byte with bit 7 clear; `low` is b[6:0] (R85). -/
  | hdrNomarker (low : BitVec 7) (te : Time)
  /-- HDR_DATA_F0: a data header with flag code 0 (R85). -/
  | hdrDataF0 (label : BitVec 4) (te : Time)
  /-- HDR_DATA_F1: a data header with flag code 1 (R85). -/
  | hdrDataF1 (label : BitVec 4) (te : Time)
  /-- HDR_DATA_F2: a data header with flag code 2 (R85). -/
  | hdrDataF2 (label : BitVec 4) (te : Time)
  /-- HDR_DATA_F3: a data header with flag code 3 (R85). -/
  | hdrDataF3 (label : BitVec 4) (te : Time)
  /-- HDR_DATA_F4: a data header with flag code 4 (R85). -/
  | hdrDataF4 (label : BitVec 4) (te : Time)
  /-- HDR_DATA_F5: a data header with flag code 5 (R85). -/
  | hdrDataF5 (label : BitVec 4) (te : Time)
  /-- HDR_BADFLAG: a data header with flag code 6 or 7 (R85). -/
  | hdrBadflag (flag : BitVec 3) (label : BitVec 4) (te : Time)
  /-- S_HEX_0: the payload character 0 of a status frame (R80). -/
  | sHex0 (te : Time)
  /-- S_HEX_1: the payload character 1 of a status frame (R80). -/
  | sHex1 (te : Time)
  /-- S_HEX_2: the payload character 2 of a status frame (R80). -/
  | sHex2 (te : Time)
  /-- S_HEX_3: the payload character 3 of a status frame (R80). -/
  | sHex3 (te : Time)
  /-- S_HEX_4: the payload character 4 of a status frame (R80). -/
  | sHex4 (te : Time)
  /-- S_HEX_5: the payload character 5 of a status frame (R80). -/
  | sHex5 (te : Time)
  /-- S_HEX_6: the payload character 6 of a status frame (R80). -/
  | sHex6 (te : Time)
  /-- S_HEX_7: the payload character 7 of a status frame (R80). -/
  | sHex7 (te : Time)
  /-- S_HEX_8: the payload character 8 of a status frame (R80). -/
  | sHex8 (te : Time)
  /-- S_HEX_9: the payload character 9 of a status frame (R80). -/
  | sHex9 (te : Time)
  /-- S_HEX_A: the payload character A of a status frame (R80). -/
  | sHexA (te : Time)
  /-- S_HEX_B: the payload character B of a status frame (R80). -/
  | sHexB (te : Time)
  /-- S_HEX_C: the payload character C of a status frame (R80). -/
  | sHexC (te : Time)
  /-- S_HEX_D: the payload character D of a status frame (R80). -/
  | sHexD (te : Time)
  /-- S_HEX_E: the payload character E of a status frame (R80). -/
  | sHexE (te : Time)
  /-- S_HEX_F: the payload character F of a status frame (R80). -/
  | sHexF (te : Time)
  /-- S_PAYLOAD_NONHEX: any other byte at a payload position of a status frame (R80). -/
  | sPayloadNonhex (b : Byte) (te : Time)
  /-- S_TERM_CR: the terminator of a status frame (R81). -/
  | sTermCr (te : Time)
  /-- S_TERM_OTHER: any other byte at the terminator position of a status frame (R81). -/
  | sTermOther (b : Byte) (te : Time)
  /-- S_OVERRUN: a byte beyond the fixed length of a status frame (R82). -/
  | sOverrun (b : Byte) (te : Time)
  /-- D_HEX_0: the payload character 0 of a data frame (R86). -/
  | dHex0 (te : Time)
  /-- D_HEX_1: the payload character 1 of a data frame (R86). -/
  | dHex1 (te : Time)
  /-- D_HEX_2: the payload character 2 of a data frame (R86). -/
  | dHex2 (te : Time)
  /-- D_HEX_3: the payload character 3 of a data frame (R86). -/
  | dHex3 (te : Time)
  /-- D_HEX_4: the payload character 4 of a data frame (R86). -/
  | dHex4 (te : Time)
  /-- D_HEX_5: the payload character 5 of a data frame (R86). -/
  | dHex5 (te : Time)
  /-- D_HEX_6: the payload character 6 of a data frame (R86). -/
  | dHex6 (te : Time)
  /-- D_HEX_7: the payload character 7 of a data frame (R86). -/
  | dHex7 (te : Time)
  /-- D_HEX_8: the payload character 8 of a data frame (R86). -/
  | dHex8 (te : Time)
  /-- D_HEX_9: the payload character 9 of a data frame (R86). -/
  | dHex9 (te : Time)
  /-- D_HEX_A: the payload character A of a data frame (R86). -/
  | dHexA (te : Time)
  /-- D_HEX_B: the payload character B of a data frame (R86). -/
  | dHexB (te : Time)
  /-- D_HEX_C: the payload character C of a data frame (R86). -/
  | dHexC (te : Time)
  /-- D_HEX_D: the payload character D of a data frame (R86). -/
  | dHexD (te : Time)
  /-- D_HEX_E: the payload character E of a data frame (R86). -/
  | dHexE (te : Time)
  /-- D_HEX_F: the payload character F of a data frame (R86). -/
  | dHexF (te : Time)
  /-- D_PAYLOAD_NONHEX: any other byte at a payload position of a data frame (R86). -/
  | dPayloadNonhex (b : Byte) (te : Time)
  /-- D_TERM_CR: the terminator of a data frame (R87). -/
  | dTermCr (te : Time)
  /-- D_TERM_OTHER: any other byte at the terminator position of a data frame (R87). -/
  | dTermOther (b : Byte) (te : Time)
  /-- D_OVERRUN: a byte beyond the fixed length of a data frame (R88). -/
  | dOverrun (b : Byte) (te : Time)
  /-- NO_INPUT: a step with in_valid = 0 (R68). -/
  | noInput
  /-- RESET: a step with rst = 1 (R110). -/
  | reset
deriving DecidableEq, Repr

end Sys2Proof
end

