-- ==== Sys2Proof/WellFormed.lean ====
section
/-! DEFINITION. Which terms of `Instr` stand for a row: an operand byte must be one the row's own condition in the
opcode table admits. -/

namespace Sys2Proof

/-- The operand checks of the opcode table's rows: a byte that a frame-start row, a hex row or the terminator row takes
first is no operand of a later row (R59), and HDR_BADFLAG has flag code 6 or 7 (R56). -/
def wellFormed : Instr → Bool
  | .idleDrop b => !isCat b
  | .forward b _ => !isCat b
  | .hdrNomarker low _ => !isCat (low.setWidth 8)
  | .hdrBadflag flag _ _ => decide (Config.maxFlag < flag)
  | .sPayloadNonhex b _ => !isCat b && !isHex b
  | .sTermOther b _ => !isCat b && b != Config.cr
  | .sOverrun b _ => !isCat b
  | .dPayloadNonhex b _ => !isCat b && !isHex b
  | .dTermOther b _ => !isCat b && b != Config.cr
  | .dOverrun b _ => !isCat b
  | .byteIn _ _ _ | .fs01 _ | .fs02 _ | .fs03 _ | .fs05 _ | .hdrStatus _ | .hdrDataF0 _ _ | .hdrDataF1 _ _
  | .hdrDataF2 _ _ | .hdrDataF3 _ _ | .hdrDataF4 _ _ | .hdrDataF5 _ _ | .sHex0 _ | .sHex1 _ | .sHex2 _
  | .sHex3 _ | .sHex4 _ | .sHex5 _ | .sHex6 _ | .sHex7 _ | .sHex8 _ | .sHex9 _ | .sHexA _ | .sHexB _
  | .sHexC _ | .sHexD _ | .sHexE _ | .sHexF _ | .sTermCr _ | .dHex0 _ | .dHex1 _ | .dHex2 _ | .dHex3 _
  | .dHex4 _ | .dHex5 _ | .dHex6 _ | .dHex7 _ | .dHex8 _ | .dHex9 _ | .dHexA _ | .dHexB _ | .dHexC _
  | .dHexD _ | .dHexE _ | .dHexF _ | .dTermCr _ | .noInput | .reset => true

end Sys2Proof
end

