-- ==== Sys2Proof/Decode.lean ====
section
/-! DEFINITION. The decode map of R59, in the three levels the spec gives it, and after it the encoder, the conditions
under which each row is selected, the rows' match and mask, and the stream forms of R61 and R62. -/

namespace Sys2Proof

/-! ## The decoder -/

/-- The ports level (R63, R68, R110): rst before in_valid, in_valid before the byte. -/
def decodePort (r : PortIn) : Instr :=
  if r.rst then .reset
  else if r.inValid then .byteIn r.inByte r.inTs r.inTe
  else .noInput

/-- The frame-start row of a category code (R59 row 1). -/
def frameStartRow (b : Byte) (ts : Time) : Instr :=
  if b = 0x01#8 then .fs01 ts
  else if b = 0x02#8 then .fs02 ts
  else if b = 0x03#8 then .fs03 ts
  else .fs05 ts

/-- The stream level (R51, R59 rows 1 and 2): a frame-start byte in any context, then the drop while Idle, else the byte
goes to the open packet. -/
def decodeStream (c : Context) (b : Byte) (ts te : Time) : Instr :=
  if isCat b then frameStartRow b ts
  else match c.ctrl with
    | .idle => .idleDrop b
    | .opened => .forward b te

/-- The data header row of a legal flag code (R59 rows 6 and 7). -/
def dataHeaderRow (flag : BitVec 3) (label : BitVec 4) (te : Time) : Instr :=
  match flag.toNat with
  | 0 => .hdrDataF0 label te
  | 1 => .hdrDataF1 label te
  | 2 => .hdrDataF2 label te
  | 3 => .hdrDataF3 label te
  | 4 => .hdrDataF4 label te
  | _ => .hdrDataF5 label te

/-- The status payload row of a hex character's value (R59 row 8). -/
def statusHexRow (n : BitVec 4) (te : Time) : Instr :=
  match n.toNat with
  | 0 => .sHex0 te
  | 1 => .sHex1 te
  | 2 => .sHex2 te
  | 3 => .sHex3 te
  | 4 => .sHex4 te
  | 5 => .sHex5 te
  | 6 => .sHex6 te
  | 7 => .sHex7 te
  | 8 => .sHex8 te
  | 9 => .sHex9 te
  | 10 => .sHexA te
  | 11 => .sHexB te
  | 12 => .sHexC te
  | 13 => .sHexD te
  | 14 => .sHexE te
  | _ => .sHexF te

/-- The data payload row of a hex character's value (R59 row 12). -/
def dataHexRow (n : BitVec 4) (te : Time) : Instr :=
  match n.toNat with
  | 0 => .dHex0 te
  | 1 => .dHex1 te
  | 2 => .dHex2 te
  | 3 => .dHex3 te
  | 4 => .dHex4 te
  | 5 => .dHex5 te
  | 6 => .dHex6 te
  | 7 => .dHex7 te
  | 8 => .dHex8 te
  | 9 => .dHex9 te
  | 10 => .dHexA te
  | 11 => .dHexB te
  | 12 => .dHexC te
  | 13 => .dHexD te
  | 14 => .dHexE te
  | _ => .dHexF te

/-- The header position (R59 rows 3 to 7): the status signature, then the marker bit, then the flag code. -/
def decodeHeader (p : Params) (cat b : Byte) (te : Time) : Instr :=
  if recognize p cat b then .hdrStatus te
  else if !markerBit b then .hdrNomarker (lowBits b) te
  else if Config.maxFlag < flagCode b then .hdrBadflag (flagCode b) (labelCode b) te
  else dataHeaderRow (flagCode b) (labelCode b) te

/-- A byte for the status decoder (R59 rows 8 to 11 and 16). No row covers pos = 0, which no open status packet has
(R34 I3): the byte stays a FORWARD there (log entry 7). -/
def decodeStatus (pos : BitVec 4) (b : Byte) (te : Time) : Instr :=
  if pos = 0#4 then .forward b te
  else if pos ≤ 4#4 then if isHex b then statusHexRow (nib b) te else .sPayloadNonhex b te
  else if pos = 5#4 then if b = Config.cr then .sTermCr te else .sTermOther b te
  else .sOverrun b te

/-- A byte for the data decoder (R59 rows 12 to 15 and 17), with the same remark on pos = 0 (R34 I4). -/
def decodeData (pos : BitVec 4) (b : Byte) (te : Time) : Instr :=
  if pos = 0#4 then .forward b te
  else if pos ≤ 8#4 then if isHex b then dataHexRow (nib b) te else .dPayloadNonhex b te
  else if pos = 9#4 then if b = Config.cr then .dTermCr te else .dTermOther b te
  else .dOverrun b te

/-- The packet level (R59 rows 3 to 17): a forwarded byte in the context of the open packet. -/
def decodePacket (p : Params) (c : Context) (b : Byte) (te : Time) : Instr :=
  match c.sub with
  | .none => decodeHeader p c.cat b te
  | .status => decodeStatus c.pos b te
  | .data => decodeData c.pos b te

/-- The whole decoder: "the byte is then decoded by the first matching row" (R59, rows BYTE_IN and FORWARD). Every input
in every context has a row (R70), so there is nothing to reject here. -/
def decode (p : Params) (c : Context) (r : PortIn) : Instr :=
  match decodePort r with
  | .byteIn b ts te =>
    match decodeStream c b ts te with
    | .forward b te => decodePacket p c b te
    | i => i
  | i => i

/-! ## When a row is selected -/

/-- Open, with no sub-decoder chosen: the HEADER context. -/
def Context.atHeader (c : Context) : Bool := c.ctrl == .opened && c.sub == .none

/-- Open, status, position 2 to 5: the STATUS_PAYLOAD context. -/
def Context.atStatusPayload (c : Context) : Bool :=
  c.ctrl == .opened && c.sub == .status && decide (1#4 ≤ c.pos) && decide (c.pos ≤ 4#4)

/-- Open, status, position 6: the STATUS_TERM context. -/
def Context.atStatusTerm (c : Context) : Bool := c.ctrl == .opened && c.sub == .status && c.pos == 5#4

/-- Open, status, position 7 or beyond: the STATUS_OVERRUN context, which no run reaches. -/
def Context.atStatusOverrun (c : Context) : Bool := c.ctrl == .opened && c.sub == .status && decide (6#4 ≤ c.pos)

/-- Open, data, position 2 to 9: the DATA_PAYLOAD context. -/
def Context.atDataPayload (c : Context) : Bool :=
  c.ctrl == .opened && c.sub == .data && decide (1#4 ≤ c.pos) && decide (c.pos ≤ 8#4)

/-- Open, data, position 10: the DATA_TERM context. -/
def Context.atDataTerm (c : Context) : Bool := c.ctrl == .opened && c.sub == .data && c.pos == 9#4

/-- Open, data, position 11 or beyond: the DATA_OVERRUN context, which no run reaches. -/
def Context.atDataOverrun (c : Context) : Bool := c.ctrl == .opened && c.sub == .data && decide (10#4 ≤ c.pos)

/-- A data header row with this flag and label: the HEADER context, and the byte is not the status signature. -/
def Context.atDataHeader (p : Params) (c : Context) (flag : BitVec 3) (label : BitVec 4) : Bool :=
  c.atHeader && !recognize p c.cat (headerByte flag label)

/-- The context column of a row's condition in the opcode table. -/
def inContext (p : Params) (c : Context) : Instr → Bool
  | .byteIn _ _ _ | .fs01 _ | .fs02 _ | .fs03 _ | .fs05 _ | .noInput | .reset => true
  | .idleDrop _ => c.ctrl == .idle
  | .forward _ _ => c.ctrl == .opened
  | .hdrStatus _ => c.atHeader && c.cat == p.statusSoh
  | .hdrNomarker _ _ => c.atHeader
  | .hdrDataF0 label _ => c.atDataHeader p 0#3 label
  | .hdrDataF1 label _ => c.atDataHeader p 1#3 label
  | .hdrDataF2 label _ => c.atDataHeader p 2#3 label
  | .hdrDataF3 label _ => c.atDataHeader p 3#3 label
  | .hdrDataF4 label _ => c.atDataHeader p 4#3 label
  | .hdrDataF5 label _ => c.atDataHeader p 5#3 label
  | .hdrBadflag flag label _ => c.atDataHeader p flag label
  | .sHex0 _ | .sHex1 _ | .sHex2 _ | .sHex3 _ | .sHex4 _ | .sHex5 _ | .sHex6 _ | .sHex7 _
  | .sHex8 _ | .sHex9 _ | .sHexA _ | .sHexB _ | .sHexC _ | .sHexD _ | .sHexE _ | .sHexF _
  | .sPayloadNonhex _ _ => c.atStatusPayload
  | .sTermCr _ | .sTermOther _ _ => c.atStatusTerm
  | .sOverrun _ _ => c.atStatusOverrun
  | .dHex0 _ | .dHex1 _ | .dHex2 _ | .dHex3 _ | .dHex4 _ | .dHex5 _ | .dHex6 _ | .dHex7 _
  | .dHex8 _ | .dHex9 _ | .dHexA _ | .dHexB _ | .dHexC _ | .dHexD _ | .dHexE _ | .dHexF _
  | .dPayloadNonhex _ _ => c.atDataPayload
  | .dTermCr _ | .dTermOther _ _ => c.atDataTerm
  | .dOverrun _ _ => c.atDataOverrun

/-- The row's whole condition in the opcode table: its context, and its byte class. -/
def selected (p : Params) (c : Context) (i : Instr) : Bool := wellFormed i && inContext p c i

/-! ## The encoder -/

/-- The byte that stands for a row, from the rows' match values. The rows on no byte have none. -/
def encodeByte (p : Params) : Instr → Option Byte
  | .byteIn b _ _ => some b
  | .fs01 _ => some 0x01
  | .fs02 _ => some 0x02
  | .fs03 _ => some 0x03
  | .fs05 _ => some 0x05
  | .idleDrop b => some b
  | .forward b _ => some b
  | .hdrStatus _ => some (statusHdr p)
  | .hdrNomarker low _ => some (low.setWidth 8)
  | .hdrDataF0 label _ => some (headerByte 0#3 label)
  | .hdrDataF1 label _ => some (headerByte 1#3 label)
  | .hdrDataF2 label _ => some (headerByte 2#3 label)
  | .hdrDataF3 label _ => some (headerByte 3#3 label)
  | .hdrDataF4 label _ => some (headerByte 4#3 label)
  | .hdrDataF5 label _ => some (headerByte 5#3 label)
  | .hdrBadflag flag label _ => some (headerByte flag label)
  | .sHex0 _ => some 0x30
  | .sHex1 _ => some 0x31
  | .sHex2 _ => some 0x32
  | .sHex3 _ => some 0x33
  | .sHex4 _ => some 0x34
  | .sHex5 _ => some 0x35
  | .sHex6 _ => some 0x36
  | .sHex7 _ => some 0x37
  | .sHex8 _ => some 0x38
  | .sHex9 _ => some 0x39
  | .sHexA _ => some 0x41
  | .sHexB _ => some 0x42
  | .sHexC _ => some 0x43
  | .sHexD _ => some 0x44
  | .sHexE _ => some 0x45
  | .sHexF _ => some 0x46
  | .sPayloadNonhex b _ => some b
  | .sTermCr _ => some Config.cr
  | .sTermOther b _ => some b
  | .sOverrun b _ => some b
  | .dHex0 _ => some 0x30
  | .dHex1 _ => some 0x31
  | .dHex2 _ => some 0x32
  | .dHex3 _ => some 0x33
  | .dHex4 _ => some 0x34
  | .dHex5 _ => some 0x35
  | .dHex6 _ => some 0x36
  | .dHex7 _ => some 0x37
  | .dHex8 _ => some 0x38
  | .dHex9 _ => some 0x39
  | .dHexA _ => some 0x41
  | .dHexB _ => some 0x42
  | .dHexC _ => some 0x43
  | .dHexD _ => some 0x44
  | .dHexE _ => some 0x45
  | .dHexF _ => some 0x46
  | .dPayloadNonhex b _ => some b
  | .dTermCr _ => some Config.cr
  | .dTermOther b _ => some b
  | .dOverrun b _ => some b
  | .noInput => none
  | .reset => none

/-- The times of the byte record that stands for a row. The half of the pair that the row does not read is set equal to
the half it reads, or 0 where it reads neither (log entry 17). -/
def encodeTimes : Instr → Time × Time
  | .byteIn _ ts te => (ts, te)
  | .fs01 ts | .fs02 ts | .fs03 ts | .fs05 ts => (ts, ts)
  | .idleDrop _ | .noInput | .reset => (0, 0)
  | .forward _ te | .hdrStatus te | .hdrNomarker _ te | .hdrBadflag _ _ te => (te, te)
  | .hdrDataF0 _ te | .hdrDataF1 _ te | .hdrDataF2 _ te => (te, te)
  | .hdrDataF3 _ te | .hdrDataF4 _ te | .hdrDataF5 _ te => (te, te)
  | .sHex0 te | .sHex1 te | .sHex2 te | .sHex3 te | .sHex4 te | .sHex5 te | .sHex6 te | .sHex7 te
  | .sHex8 te | .sHex9 te | .sHexA te | .sHexB te | .sHexC te | .sHexD te | .sHexE te | .sHexF te => (te, te)
  | .sPayloadNonhex _ te | .sTermCr te | .sTermOther _ te | .sOverrun _ te => (te, te)
  | .dHex0 te | .dHex1 te | .dHex2 te | .dHex3 te | .dHex4 te | .dHex5 te | .dHex6 te | .dHex7 te
  | .dHex8 te | .dHex9 te | .dHexA te | .dHexB te | .dHexC te | .dHexD te | .dHexE te | .dHexF te => (te, te)
  | .dPayloadNonhex _ te | .dTermCr te | .dTermOther _ te | .dOverrun _ te => (te, te)

/-- A presented byte record: rst = 0 and in_valid = 1 (R61). -/
def byteRecord (b : Byte) (ts te : Time) : PortIn := ⟨false, true, b, ts, te⟩

/-- The input ports' values with nothing presented: rst = 0 and in_valid = 0 (R68). -/
def noRecord : PortIn := ⟨false, false, 0, 0, 0⟩

/-- The input ports' values that present a row. -/
def encode (p : Params) (i : Instr) : PortIn :=
  match encodeByte p i with
  | some b => byteRecord b (encodeTimes i).1 (encodeTimes i).2
  | none => ⟨i == .reset, false, 0, 0, 0⟩

/-- `match` and `mask` of the opcode table's row, where the row is one on a byte. -/
def tableRow (p : Params) : Instr → Byte × Byte
  | .fs01 _ => (0x01, 0xFF)
  | .fs02 _ => (0x02, 0xFF)
  | .fs03 _ => (0x03, 0xFF)
  | .fs05 _ => (0x05, 0xFF)
  | .hdrStatus _ => (statusHdr p, 0xFF)
  | .hdrNomarker _ _ => (0x00, 0x80)
  | .hdrDataF0 _ _ => (0x80, 0xF0)
  | .hdrDataF1 _ _ => (0x90, 0xF0)
  | .hdrDataF2 _ _ => (0xA0, 0xF0)
  | .hdrDataF3 _ _ => (0xB0, 0xF0)
  | .hdrDataF4 _ _ => (0xC0, 0xF0)
  | .hdrDataF5 _ _ => (0xD0, 0xF0)
  | .hdrBadflag _ _ _ => (0xE0, 0xE0)
  | .sHex0 _ => (0x30, 0xFF)
  | .sHex1 _ => (0x31, 0xFF)
  | .sHex2 _ => (0x32, 0xFF)
  | .sHex3 _ => (0x33, 0xFF)
  | .sHex4 _ => (0x34, 0xFF)
  | .sHex5 _ => (0x35, 0xFF)
  | .sHex6 _ => (0x36, 0xFF)
  | .sHex7 _ => (0x37, 0xFF)
  | .sHex8 _ => (0x38, 0xFF)
  | .sHex9 _ => (0x39, 0xFF)
  | .sHexA _ => (0x41, 0xFF)
  | .sHexB _ => (0x42, 0xFF)
  | .sHexC _ => (0x43, 0xFF)
  | .sHexD _ => (0x44, 0xFF)
  | .sHexE _ => (0x45, 0xFF)
  | .sHexF _ => (0x46, 0xFF)
  | .sTermCr _ => (0x0D, 0xFF)
  | .sPayloadNonhex _ _ | .sTermOther _ _ | .sOverrun _ _ => (0x00, 0x00)
  | .dHex0 _ => (0x30, 0xFF)
  | .dHex1 _ => (0x31, 0xFF)
  | .dHex2 _ => (0x32, 0xFF)
  | .dHex3 _ => (0x33, 0xFF)
  | .dHex4 _ => (0x34, 0xFF)
  | .dHex5 _ => (0x35, 0xFF)
  | .dHex6 _ => (0x36, 0xFF)
  | .dHex7 _ => (0x37, 0xFF)
  | .dHex8 _ => (0x38, 0xFF)
  | .dHex9 _ => (0x39, 0xFF)
  | .dHexA _ => (0x41, 0xFF)
  | .dHexB _ => (0x42, 0xFF)
  | .dHexC _ => (0x43, 0xFF)
  | .dHexD _ => (0x44, 0xFF)
  | .dHexE _ => (0x45, 0xFF)
  | .dHexF _ => (0x46, 0xFF)
  | .dTermCr _ => (0x0D, 0xFF)
  | .dPayloadNonhex _ _ | .dTermOther _ _ | .dOverrun _ _ => (0x00, 0x00)
  | .byteIn _ _ _ | .idleDrop _ | .forward _ _ | .noInput | .reset => (0x00, 0x00)

/-! ## Stream forms (R61, R62) -/

/-- The upper-case hex character of a nibble (R50). -/
def hexChar (n : BitVec 4) : Byte :=
  if n ≤ 9#4 then 0x30#8 + n.setWidth 8 else 0x37#8 + n.setWidth 8

/-- `VALUE16(v)`: four upper-case hex characters, most significant first (R62). -/
def value16Chars (v : Half) : List Byte :=
  [12, 8, 4, 0].map fun k => hexChar (v.extractLsb' k 4)

/-- `WORD32(w)`: eight upper-case hex characters, most significant first (R62). -/
def word32Chars (w : Word) : List Byte :=
  [28, 24, 20, 16, 12, 8, 4, 0].map fun k => hexChar (w.extractLsb' k 4)

/-- `STATUS(c, VALUE16(v))`, with the frame-start byte c (R62). -/
def statusForm (p : Params) (c : Byte) (v : Half) : List Byte :=
  [c, statusHdr p] ++ value16Chars v ++ [Config.cr]

/-- `DATA(c, f, l, WORD32(w))` (R62). -/
def dataForm (c : Byte) (f : BitVec 3) (l : BitVec 4) (w : Word) : List Byte :=
  [c, headerByte f l] ++ word32Chars w ++ [Config.cr]

/-- A stream of bytes as input records, one a step, in the order written (R61). Byte number k, counted from `k`, has the
times `ts k` and `te k`. -/
def streamFrom (ts te : Nat → Time) : Nat → List Byte → List PortIn
  | _, [] => []
  | k, b :: bs => byteRecord b (ts k) (te k) :: streamFrom ts te (k + 1) bs

/-! ## The opcode table's words -/

/-- Why a word of the opcode table is no input of the block. -/
inductive WordReject where
  /-- the word is wider than the one byte the block takes in a step (R43) -/
  | notOneByte
deriving DecidableEq, Repr

/-- A context in which the table's byte, standing alone, is read by a row of its own byte class: the hex digits and the
terminator in a status frame, every other byte at a header position. DESIGN CHOICE (log entry 18): a byte alone does not
say its context. -/
def wordContext (cat b : Byte) : Context :=
  if isHex b then ⟨.opened, cat, .status, 1⟩
  else if b = Config.cr then ⟨.opened, cat, .status, 5⟩
  else ⟨.opened, cat, .none, 0⟩

/-- A category other than STATUS_SOH, under which no header is the status signature (R57). -/
def otherCat (p : Params) : Byte := if p.statusSoh = 0x02 then 0x03 else 0x02

/-- The decoder on a word of the opcode table, by name of what it rejects. The result does not depend on the
configuration: `wordContext` keeps the status signature out, so a blank configuration is passed. -/
def decodeWord (nbits w : Nat) : Except WordReject Instr :=
  if nbits ≤ 8 ∧ w < 256 then
    let b := BitVec.ofNat 8 w
    let p : Params := default
    .ok (decode p (wordContext (otherCat p) b) (byteRecord b 0 0))
  else .error .notOneByte

/-- The instruction the decoder reads from a word of the opcode table. -/
def decodeTableWord (nbits w : Nat) : Option Instr := (decodeWord nbits w).toOption

end Sys2Proof
end

