-- ==== Sys2Proof/Machine/State.lean ====
section
/-! DEFINITION. The state of the block: the registers of R17, the output record of R32, and the model's own copies of
the configuration and of the values to come at the input ports; the reasons a step can stop; the state after reset. -/

namespace Sys2Proof.Machine

/-- An output record as the output ports of R32 carry it while out_valid = 1. -/
structure OutRecord where
  /-- `out_kind[1:0]`: 0 = Error, 1 = Status, 2 = Data -/
  kind : BitVec 2
  /-- `out_err[2:0]`: the error code of R97 -/
  err : BitVec 3
  /-- `out_cat[7:0]` -/
  cat : Byte
  /-- `out_label[3:0]` -/
  label : BitVec 4
  /-- `out_flag[2:0]` -/
  flag : BitVec 3
  /-- `out_value[31:0]` -/
  value : Word
  /-- `out_fclass[2:0]`: the float class of R91 -/
  fclass : BitVec 3
  /-- `out_ts` -/
  ts : Time
  /-- `out_te` -/
  te : Time
deriving DecidableEq, Repr

/-- The state. R17 gives the eight registers `ctrl` to `hdrLabel`. -/
structure State where
  /-- The configuration parameters (R9, R10, R27): constant for the life of the block. The model's own copy
  (log entry 1); no step writes it. -/
  params : Params
  /-- `ctrl` (R18) -/
  ctrl : Ctrl
  /-- `cat` (R19) -/
  cat : Byte
  /-- `t_start` (R20) -/
  tStart : Time
  /-- `sub` (R21) -/
  sub : SubDecoder
  /-- `pos` (R22) -/
  pos : BitVec 4
  /-- `acc` (R23) -/
  acc : Word
  /-- `hdr_flag` (R24) -/
  hdrFlag : BitVec 3
  /-- `hdr_label` (R24) -/
  hdrLabel : BitVec 4
  /-- The output ports of the step just taken (R32): `none` is out_valid = 0, with every other port any value
  (log entry 4). -/
  out : Option OutRecord
  /-- The values at the input ports in the coming steps, the next step's first (R31). The model's own field
  (log entry 3). -/
  input : List PortIn
deriving DecidableEq, Repr

/-- Why a step stops. The block itself never faults (R70, R101). -/
inductive Fault where
  /-- Raised by a row's meaning when it is run in a context in which R59 does not select that row. Safe: the spec gives a
  row no effect there, and no step raises it. Log entry 6. -/
  | rowNotSelected
deriving DecidableEq, Repr

/-- Why an instruction has no meaning. -/
inductive Refusal where
  /-- Raised by `exec` for a row that is not modelled. Safe. No row is. -/
  | notModelled (mnemonic : String)
deriving DecidableEq, Repr

/-- What the decode map reads of the state (R26, R59). -/
def State.context (s : State) : Context := ⟨s.ctrl, s.cat, s.sub, s.pos⟩

/-- The machine right after reset: the registers as R35 gives them, out_valid = 0 (R110), nothing presented at the input
ports (log entry 3), and the configuration open (log entry 1). -/
def State.reset : State where
  params := Config.params
  ctrl := .idle
  cat := 0x00
  tStart := 0
  sub := .none
  pos := 0
  acc := 0
  hdrFlag := 0
  hdrLabel := 0
  out := none
  input := []

end Sys2Proof.Machine
end

