-- ==== Sys2Proof/Machine/Flags.lean ====
section
/-! DEFINITION. The block has no condition codes (R28); its status is in the transient signals of a step (R25): the
error, the stop time, completion, and the decoded values. -/

namespace Sys2Proof.Machine

/-- The six error kinds (R96). -/
inductive ErrorKind where
  | nonHexPayloadByte
  | wrongFrameLength
  | malformedStatusValue
  | malformedFloatValue
  | markerBitMissing
  | unknownFieldOrFlag
deriving DecidableEq, Repr

/-- `code(err)`, the error code on `out_err` (R97). -/
def ErrorKind.code : ErrorKind → BitVec 3
  | .nonHexPayloadByte => 1
  | .wrongFrameLength => 2
  | .malformedStatusValue => 3
  | .malformedFloatValue => 4
  | .markerBitMissing => 5
  | .unknownFieldOrFlag => 6

/-- The transient signals of a step (R25). `value16` and `word32` follow `acc` and are read only where `complete` is
true (R81, R87). -/
structure Signals where
  err : Option ErrorKind
  tStop : Option Time
  complete : Bool
  value16 : Half
  word32 : Word
deriving DecidableEq, Repr

/-- The stop time: the error sets it to `te`, and completion sets it to `te` if no error has (R74). -/
def stopTime (err : Option ErrorKind) (complete : Bool) (te : Time) : Option Time :=
  let afterError : Option Time := if err.isSome then some te else none
  if complete && afterError.isNone then some te else afterError

/-- A packet is done exactly when its stop time is set (R75). -/
def Signals.done (g : Signals) : Bool := g.tStop.isSome

end Sys2Proof.Machine
end

