-- ==== Sys2Proof/Machine/Float.lean ====
section
/-! DEFINITION. The reading of a data word as IEEE-754 binary32: its bit-fields (R90), its class (R91) and the value it
denotes (R92). The block computes the class alone; it never computes on the value (R94). The layout, the class conditions
and the formulas are the spec's own general knowledge (G2 to G4, log entry 19). -/

namespace Sys2Proof.Machine

/-- `s = w[31]` (R90). -/
def signBit (w : Word) : Bool := w.getLsbD 31

/-- `e = w[30:23]` (R90). -/
def exponentField (w : Word) : BitVec 8 := w.extractLsb' 23 8

/-- `f = w[22:0]` (R90). -/
def fractionField (w : Word) : BitVec 23 := w.extractLsb' 0 23

/-- The classes of R91. -/
inductive FClass where
  | zero
  | subnormal
  | normal
  | infinity
  | qnan
  | snan
deriving DecidableEq, Repr

/-- The code of a class on `out_fclass` (R91). -/
def FClass.code : FClass → BitVec 3
  | .zero => 0
  | .subnormal => 1
  | .normal => 2
  | .infinity => 3
  | .qnan => 4
  | .snan => 5

/-- `fclass(w)` (R91). -/
def fclass (w : Word) : FClass :=
  if exponentField w = 0#8 then
    if fractionField w = 0#23 then .zero else .subnormal
  else if exponentField w = 255#8 then
    if fractionField w = 0#23 then .infinity
    else if (fractionField w).getLsbD 22 then .qnan
    else .snan
  else .normal

/-- What a data word denotes (R92): a signed zero, an exact rational, a signed infinity, or a NaN with its sign and
fraction. -/
inductive FloatValue where
  | zero (negative : Bool)
  | finite (v : Rat)
  | infinity (negative : Bool)
  | nan (negative : Bool) (fraction : BitVec 23)
deriving DecidableEq, Repr

/-- `(−1)^s` (R92). -/
def signFactor (negative : Bool) : Rat := if negative then -1 else 1

/-- The value the word denotes, exactly and without rounding (R92). -/
def floatValue (w : Word) : FloatValue :=
  match fclass w with
  | .zero => .zero (signBit w)
  | .subnormal =>
    .finite (signFactor (signBit w) * (2 : Rat) ^ (-126 : Int) * ((fractionField w).toNat / (2 : Rat) ^ 23))
  | .normal =>
    .finite (signFactor (signBit w) * (2 : Rat) ^ ((exponentField w).toNat - 127 : Int)
      * (1 + (fractionField w).toNat / (2 : Rat) ^ 23))
  | .infinity => .infinity (signBit w)
  | .qnan | .snan => .nan (signBit w) (fractionField w)

end Sys2Proof.Machine
end

