-- ==== Sys2Proof/Machine/Ops.lean ====
section
/-! DEFINITION. The named operations over the registers, the input ports and the output record; raising an error as one
operation, and what follows it. -/

namespace Sys2Proof.Machine

/-! ## The input ports -/

/-- The values at the input ports in this step; where the driver presents nothing, in_valid is 0 (R31, R68;
log entry 3). -/
def State.ports (s : State) : PortIn := s.input.headD noRecord

/-- The state once this step's port values are taken. -/
def State.takeInput (s : State) : State := { s with input := s.input.tail }

/-! ## Register operations -/

/-- `out_valid <- 0`, and no register is written (R65, R68). -/
def noOutput (s : State) : State := { s with out := none }

/-- `open_new_packet(b, ts)` (R64). An open packet is discarded, and nothing is emitted for it. -/
def openPacket (b : Byte) (ts : Time) (s : State) : State :=
  { s with
    ctrl := .opened, cat := b, tStart := ts, sub := .none, pos := 0, acc := 0, hdrFlag := 0, hdrLabel := 0,
    out := none }

/-- Every register takes its reset value and out_valid is 0 (R35, R110). The configuration is no register and the input
ports are no register. -/
def resetRegisters (s : State) : State :=
  { s with
    ctrl := .idle, cat := 0x00, tStart := 0, sub := .none, pos := 0, acc := 0, hdrFlag := 0, hdrLabel := 0,
    out := none }

/-- `pos <- pos + 1`, on 4 bits (R78, R84, R89). -/
def advance (s : State) : State := { s with pos := s.pos + 1#4 }

/-- `acc <- (acc << 4) | zext_32(n)`, the bits shifted out at the top discarded (R23, R89). -/
def shiftNibble (n : BitVec 4) (s : State) : State := { s with acc := (s.acc <<< 4) ||| n.setWidth 32 }

/-- `hdr_flag <- flag; hdr_label <- label` (R24, R85). -/
def recordHeader (flag : BitVec 3) (label : BitVec 4) (s : State) : State :=
  { s with hdrFlag := flag, hdrLabel := label }

/-! ## What a sub-decoder answers -/

/-- A sub-decoder's answer to one byte: the registers it wrote, an error kind or none, and completion (R73, R78, R84). -/
structure SubResult where
  regs : State
  err : Option ErrorKind
  complete : Bool
deriving DecidableEq, Repr

/-- `return (⊥, false)`: the byte is accepted and the packet goes on. -/
def goOn (s : State) : SubResult := ⟨s, none, false⟩

/-- `return (⊥, true)`: the byte completes the packet (R81, R87). -/
def completed (s : State) : SubResult := ⟨s, none, true⟩

/-- `raise Err(kind)`, as a sub-decoder answers it (R100). The packet's end follows in `conclude`. -/
def raiseErr (k : ErrorKind) (s : State) : SubResult := ⟨s, some k, false⟩

/-! ## The end of a packet -/

/-- The transient signals after the byte with end time `te` (R74, R81, R87). -/
def signalsOf (r : SubResult) (te : Time) : Signals where
  err := r.err
  tStop := stopTime r.err r.complete te
  complete := r.complete
  value16 := r.regs.acc.extractLsb' 0 16
  word32 := r.regs.acc

/-- `build_record` (R76): the error first, then the sub-decoder. -/
def buildRecord (g : Signals) (sub : SubDecoder) (tStop : Time) (s : State) : OutRecord :=
  match g.err with
  | some k =>
    { kind := 0, err := k.code, cat := s.cat, label := 0, flag := 0, value := 0, fclass := 0, ts := s.tStart, te := tStop }
  | none =>
    if sub = .status then
      { kind := 1, err := 0, cat := s.cat, label := 0, flag := 0, value := g.value16.setWidth 32, fclass := 0
        ts := s.tStart, te := tStop }
    else
      { kind := 2, err := 0, cat := s.cat, label := s.hdrLabel, flag := s.hdrFlag, value := g.word32
        fclass := (fclass g.word32).code, ts := s.tStart, te := tStop }

/-- `emit(rec); ctrl <- Idle` (R67). -/
def emit (rec : OutRecord) (s : State) : State := { s with ctrl := .idle, out := some rec }

/-- Steps 1, 3 and 4 of packet_feed and what the Stream Controller does with its answer, around a sub-decoder's answer
`r` to a byte with end time `te` (R63, R66, R71, R74 to R76): `sub` is written; a done packet is emitted and closed; an
open one drives no record. This is also where an error takes effect (R100); there is nothing to return from (R101). -/
def conclude (sub : SubDecoder) (te : Time) (r : SubResult) : State :=
  let g := signalsOf r te
  let s := { r.regs with sub := sub }
  match g.tStop with
  | some t => emit (buildRecord g sub t s) s
  | none => noOutput s

/-! ## Running a row -/

/-- The outcome of a row that takes the state `s` to `t`: R59 selects the row only under its condition (log entry 6). -/
def runRow (i : Instr) (s t : State) : Host.Outcome State Fault Refusal :=
  if selected s.params s.context i then .next t else .fault .rowNotSelected

end Sys2Proof.Machine
end

