-- ==== Sys2Proof/Machine/Packet.lean ====
section
/-! DEFINITION. The Frame Dispatcher and its two sub-decoders as the spec's pseudocode gives them (R71 to R88): what
FORWARD does with a byte. The rows of the packet contexts stand in StatusDecoder.lean and DataDecoder.lean. -/

namespace Sys2Proof.Machine

/-! ## Status Frame Decoder -/

/-- `status_header(b)`, position 1: the signature byte has already matched (R79). -/
def statusHeader (s : State) : SubResult := goOn s

/-- `status_payload(b)`, positions 2 to 5 (R80). -/
def statusPayload (b : Byte) (s : State) : SubResult :=
  if !isHex b then raiseErr .nonHexPayloadByte s else goOn (shiftNibble (nib b) s)

/-- `status_term(b)`, position 6 (R81). -/
def statusTerm (b : Byte) (s : State) : SubResult :=
  if b ≠ Config.cr then raiseErr .wrongFrameLength s else completed s

/-- `status_overrun(b)`, position 7 or beyond (R82). -/
def statusOverrun (s : State) : SubResult := raiseErr .wrongFrameLength s

/-- `status_feed(b)`: the position is advanced before the checks (R78). -/
def statusFeed (b : Byte) (s : State) : SubResult :=
  let s := advance s
  if s.pos = 1#4 then statusHeader s
  else if 2#4 ≤ s.pos ∧ s.pos ≤ 5#4 then statusPayload b s
  else if s.pos = 6#4 then statusTerm b s
  else statusOverrun s

/-! ## Data Frame Decoder -/

/-- `data_header(b)`, position 1 (R85). -/
def dataHeader (b : Byte) (s : State) : SubResult :=
  if !markerBit b then raiseErr .markerBitMissing s
  else if Config.maxFlag < flagCode b ∨ !labelDefined s.params s.cat (labelCode b) then raiseErr .unknownFieldOrFlag s
  else goOn (recordHeader (flagCode b) (labelCode b) s)

/-- `data_payload(b)`, positions 2 to 9 (R86). -/
def dataPayload (b : Byte) (s : State) : SubResult :=
  if !isHex b then raiseErr .nonHexPayloadByte s else goOn (shiftNibble (nib b) s)

/-- `data_term(b)`, position 10 (R87). -/
def dataTerm (b : Byte) (s : State) : SubResult :=
  if b ≠ Config.cr then raiseErr .wrongFrameLength s else completed s

/-- `data_overrun(b)`, position 11 or beyond (R88). -/
def dataOverrun (s : State) : SubResult := raiseErr .wrongFrameLength s

/-- `data_feed(b)` (R84). -/
def dataFeed (b : Byte) (s : State) : SubResult :=
  let s := advance s
  if s.pos = 1#4 then dataHeader b s
  else if 2#4 ≤ s.pos ∧ s.pos ≤ 9#4 then dataPayload b s
  else if s.pos = 10#4 then dataTerm b s
  else dataOverrun s

/-! ## Frame Dispatcher -/

/-- `classify(cat, b)` (R72). -/
def classify (p : Params) (cat b : Byte) : SubDecoder := if recognize p cat b then .status else .data

/-- `delegate(s, b)` (R73). It is never asked with NONE. -/
def delegate (sub : SubDecoder) (b : Byte) (s : State) : SubResult :=
  match sub with
  | .status => statusFeed b s
  | .data | .none => dataFeed b s

/-- `packet_feed(b, te)`, with the Stream Controller's end of the step (R66, R71). -/
def packetFeed (b : Byte) (te : Time) (s : State) : State :=
  let sub := if s.sub = .none then classify s.params s.cat b else s.sub
  conclude sub te (delegate sub b s)

end Sys2Proof.Machine
end

