-- ==== Sys2Proof/Machine/DataDecoder.lean ====
section
/-! DEFINITION. The rows of the data contexts: the header position, and the payload, terminator and overrun positions of
a data frame (R85 to R88). -/

namespace Sys2Proof.Machine

/-- An accepted payload character of value `n` (R86): its nibble is shifted into the accumulator and the position
advances. -/
def dataNibble (n : BitVec 4) (te : Time) (s : State) : State :=
  conclude .data te (goOn (shiftNibble n (advance s)))

/-- A byte on which the data decoder raises an error (R85 to R88, R100). The position has advanced by then (R78, R84). -/
def dataError (k : ErrorKind) (te : Time) (s : State) : State :=
  conclude .data te (raiseErr k (advance s))

/-- A data header with a legal flag code: accepted if the label is defined for the category, else UnknownFieldOrFlag
(R85). -/
def dataHeaderLabel (flag : BitVec 3) (label : BitVec 4) (te : Time) (s : State) : State :=
  if labelDefined s.params s.cat label then conclude .data te (goOn (recordHeader flag label (advance s)))
  else dataError .unknownFieldOrFlag te s

/-- HDR_NOMARKER: MarkerBitMissing (R85). -/
def execHdrNomarker (low : BitVec 7) (te : Time) (s : State) : Host.Outcome State Fault Refusal :=
  runRow (.hdrNomarker low te) s (dataError .markerBitMissing te s)

/-- HDR_DATA_F0 (R85). -/
def execHdrDataF0 (label : BitVec 4) (te : Time) (s : State) : Host.Outcome State Fault Refusal :=
  runRow (.hdrDataF0 label te) s (dataHeaderLabel 0#3 label te s)

/-- HDR_DATA_F1 (R85). -/
def execHdrDataF1 (label : BitVec 4) (te : Time) (s : State) : Host.Outcome State Fault Refusal :=
  runRow (.hdrDataF1 label te) s (dataHeaderLabel 1#3 label te s)

/-- HDR_DATA_F2 (R85). -/
def execHdrDataF2 (label : BitVec 4) (te : Time) (s : State) : Host.Outcome State Fault Refusal :=
  runRow (.hdrDataF2 label te) s (dataHeaderLabel 2#3 label te s)

/-- HDR_DATA_F3 (R85). -/
def execHdrDataF3 (label : BitVec 4) (te : Time) (s : State) : Host.Outcome State Fault Refusal :=
  runRow (.hdrDataF3 label te) s (dataHeaderLabel 3#3 label te s)

/-- HDR_DATA_F4 (R85). -/
def execHdrDataF4 (label : BitVec 4) (te : Time) (s : State) : Host.Outcome State Fault Refusal :=
  runRow (.hdrDataF4 label te) s (dataHeaderLabel 4#3 label te s)

/-- HDR_DATA_F5 (R85). -/
def execHdrDataF5 (label : BitVec 4) (te : Time) (s : State) : Host.Outcome State Fault Refusal :=
  runRow (.hdrDataF5 label te) s (dataHeaderLabel 5#3 label te s)

/-- HDR_BADFLAG: UnknownFieldOrFlag, whatever the label (R85). -/
def execHdrBadflag (flag : BitVec 3) (label : BitVec 4) (te : Time) (s : State) : Host.Outcome State Fault Refusal :=
  runRow (.hdrBadflag flag label te) s (dataError .unknownFieldOrFlag te s)

/-- D_HEX_0 (R86). -/
def execDHex0 (te : Time) (s : State) : Host.Outcome State Fault Refusal :=
  runRow (.dHex0 te) s (dataNibble 0x0#4 te s)

/-- D_HEX_1 (R86). -/
def execDHex1 (te : Time) (s : State) : Host.Outcome State Fault Refusal :=
  runRow (.dHex1 te) s (dataNibble 0x1#4 te s)

/-- D_HEX_2 (R86). -/
def execDHex2 (te : Time) (s : State) : Host.Outcome State Fault Refusal :=
  runRow (.dHex2 te) s (dataNibble 0x2#4 te s)

/-- D_HEX_3 (R86). -/
def execDHex3 (te : Time) (s : State) : Host.Outcome State Fault Refusal :=
  runRow (.dHex3 te) s (dataNibble 0x3#4 te s)

/-- D_HEX_4 (R86). -/
def execDHex4 (te : Time) (s : State) : Host.Outcome State Fault Refusal :=
  runRow (.dHex4 te) s (dataNibble 0x4#4 te s)

/-- D_HEX_5 (R86). -/
def execDHex5 (te : Time) (s : State) : Host.Outcome State Fault Refusal :=
  runRow (.dHex5 te) s (dataNibble 0x5#4 te s)

/-- D_HEX_6 (R86). -/
def execDHex6 (te : Time) (s : State) : Host.Outcome State Fault Refusal :=
  runRow (.dHex6 te) s (dataNibble 0x6#4 te s)

/-- D_HEX_7 (R86). -/
def execDHex7 (te : Time) (s : State) : Host.Outcome State Fault Refusal :=
  runRow (.dHex7 te) s (dataNibble 0x7#4 te s)

/-- D_HEX_8 (R86). -/
def execDHex8 (te : Time) (s : State) : Host.Outcome State Fault Refusal :=
  runRow (.dHex8 te) s (dataNibble 0x8#4 te s)

/-- D_HEX_9 (R86). -/
def execDHex9 (te : Time) (s : State) : Host.Outcome State Fault Refusal :=
  runRow (.dHex9 te) s (dataNibble 0x9#4 te s)

/-- D_HEX_A (R86). -/
def execDHexA (te : Time) (s : State) : Host.Outcome State Fault Refusal :=
  runRow (.dHexA te) s (dataNibble 0xA#4 te s)

/-- D_HEX_B (R86). -/
def execDHexB (te : Time) (s : State) : Host.Outcome State Fault Refusal :=
  runRow (.dHexB te) s (dataNibble 0xB#4 te s)

/-- D_HEX_C (R86). -/
def execDHexC (te : Time) (s : State) : Host.Outcome State Fault Refusal :=
  runRow (.dHexC te) s (dataNibble 0xC#4 te s)

/-- D_HEX_D (R86). -/
def execDHexD (te : Time) (s : State) : Host.Outcome State Fault Refusal :=
  runRow (.dHexD te) s (dataNibble 0xD#4 te s)

/-- D_HEX_E (R86). -/
def execDHexE (te : Time) (s : State) : Host.Outcome State Fault Refusal :=
  runRow (.dHexE te) s (dataNibble 0xE#4 te s)

/-- D_HEX_F (R86). -/
def execDHexF (te : Time) (s : State) : Host.Outcome State Fault Refusal :=
  runRow (.dHexF te) s (dataNibble 0xF#4 te s)

/-- D_PAYLOAD_NONHEX: NonHexPayloadByte (R86). -/
def execDPayloadNonhex (b : Byte) (te : Time) (s : State) : Host.Outcome State Fault Refusal :=
  runRow (.dPayloadNonhex b te) s (dataError .nonHexPayloadByte te s)

/-- D_TERM_CR: the packet completes (R87). -/
def execDTermCr (te : Time) (s : State) : Host.Outcome State Fault Refusal :=
  runRow (.dTermCr te) s (conclude .data te (completed (advance s)))

/-- D_TERM_OTHER: WrongFrameLength (R87). -/
def execDTermOther (b : Byte) (te : Time) (s : State) : Host.Outcome State Fault Refusal :=
  runRow (.dTermOther b te) s (dataError .wrongFrameLength te s)

/-- D_OVERRUN: WrongFrameLength (R88). No run of the block reaches it. -/
def execDOverrun (b : Byte) (te : Time) (s : State) : Host.Outcome State Fault Refusal :=
  runRow (.dOverrun b te) s (dataError .wrongFrameLength te s)

end Sys2Proof.Machine
end

