-- ==== Sys2Proof/Machine/StatusDecoder.lean ====
section
/-! DEFINITION. The rows of the status contexts: the signature byte at the header position, and the payload, terminator
and overrun positions of a status frame (R79 to R82). -/

namespace Sys2Proof.Machine

/-- An accepted payload character of value `n` (R80): its nibble is shifted into the accumulator and the position
advances. -/
def statusNibble (n : BitVec 4) (te : Time) (s : State) : State :=
  conclude .status te (goOn (shiftNibble n (advance s)))

/-- A byte on which the status decoder raises an error (R80 to R82, R100). The position has advanced by then (R78, R84). -/
def statusError (k : ErrorKind) (te : Time) (s : State) : State :=
  conclude .status te (raiseErr k (advance s))

/-- HDR_STATUS: the packet takes the status decoder, at position 1 (R79). -/
def execHdrStatus (te : Time) (s : State) : Host.Outcome State Fault Refusal :=
  runRow (.hdrStatus te) s (conclude .status te (goOn (advance s)))

/-- S_HEX_0 (R80). -/
def execSHex0 (te : Time) (s : State) : Host.Outcome State Fault Refusal :=
  runRow (.sHex0 te) s (statusNibble 0x0#4 te s)

/-- S_HEX_1 (R80). -/
def execSHex1 (te : Time) (s : State) : Host.Outcome State Fault Refusal :=
  runRow (.sHex1 te) s (statusNibble 0x1#4 te s)

/-- S_HEX_2 (R80). -/
def execSHex2 (te : Time) (s : State) : Host.Outcome State Fault Refusal :=
  runRow (.sHex2 te) s (statusNibble 0x2#4 te s)

/-- S_HEX_3 (R80). -/
def execSHex3 (te : Time) (s : State) : Host.Outcome State Fault Refusal :=
  runRow (.sHex3 te) s (statusNibble 0x3#4 te s)

/-- S_HEX_4 (R80). -/
def execSHex4 (te : Time) (s : State) : Host.Outcome State Fault Refusal :=
  runRow (.sHex4 te) s (statusNibble 0x4#4 te s)

/-- S_HEX_5 (R80). -/
def execSHex5 (te : Time) (s : State) : Host.Outcome State Fault Refusal :=
  runRow (.sHex5 te) s (statusNibble 0x5#4 te s)

/-- S_HEX_6 (R80). -/
def execSHex6 (te : Time) (s : State) : Host.Outcome State Fault Refusal :=
  runRow (.sHex6 te) s (statusNibble 0x6#4 te s)

/-- S_HEX_7 (R80). -/
def execSHex7 (te : Time) (s : State) : Host.Outcome State Fault Refusal :=
  runRow (.sHex7 te) s (statusNibble 0x7#4 te s)

/-- S_HEX_8 (R80). -/
def execSHex8 (te : Time) (s : State) : Host.Outcome State Fault Refusal :=
  runRow (.sHex8 te) s (statusNibble 0x8#4 te s)

/-- S_HEX_9 (R80). -/
def execSHex9 (te : Time) (s : State) : Host.Outcome State Fault Refusal :=
  runRow (.sHex9 te) s (statusNibble 0x9#4 te s)

/-- S_HEX_A (R80). -/
def execSHexA (te : Time) (s : State) : Host.Outcome State Fault Refusal :=
  runRow (.sHexA te) s (statusNibble 0xA#4 te s)

/-- S_HEX_B (R80). -/
def execSHexB (te : Time) (s : State) : Host.Outcome State Fault Refusal :=
  runRow (.sHexB te) s (statusNibble 0xB#4 te s)

/-- S_HEX_C (R80). -/
def execSHexC (te : Time) (s : State) : Host.Outcome State Fault Refusal :=
  runRow (.sHexC te) s (statusNibble 0xC#4 te s)

/-- S_HEX_D (R80). -/
def execSHexD (te : Time) (s : State) : Host.Outcome State Fault Refusal :=
  runRow (.sHexD te) s (statusNibble 0xD#4 te s)

/-- S_HEX_E (R80). -/
def execSHexE (te : Time) (s : State) : Host.Outcome State Fault Refusal :=
  runRow (.sHexE te) s (statusNibble 0xE#4 te s)

/-- S_HEX_F (R80). -/
def execSHexF (te : Time) (s : State) : Host.Outcome State Fault Refusal :=
  runRow (.sHexF te) s (statusNibble 0xF#4 te s)

/-- S_PAYLOAD_NONHEX: NonHexPayloadByte (R80). -/
def execSPayloadNonhex (b : Byte) (te : Time) (s : State) : Host.Outcome State Fault Refusal :=
  runRow (.sPayloadNonhex b te) s (statusError .nonHexPayloadByte te s)

/-- S_TERM_CR: the packet completes (R81). -/
def execSTermCr (te : Time) (s : State) : Host.Outcome State Fault Refusal :=
  runRow (.sTermCr te) s (conclude .status te (completed (advance s)))

/-- S_TERM_OTHER: WrongFrameLength (R81). -/
def execSTermOther (b : Byte) (te : Time) (s : State) : Host.Outcome State Fault Refusal :=
  runRow (.sTermOther b te) s (statusError .wrongFrameLength te s)

/-- S_OVERRUN: WrongFrameLength (R82). No run of the block reaches it. -/
def execSOverrun (b : Byte) (te : Time) (s : State) : Host.Outcome State Fault Refusal :=
  runRow (.sOverrun b te) s (statusError .wrongFrameLength te s)

end Sys2Proof.Machine
end

