-- ==== Sys2Proof/Machine/StreamController.lean ====
section
/-! DEFINITION. The rows of the ports and stream levels: RESET, NO_INPUT, BYTE_IN, the frame starts, IDLE_DROP and
FORWARD (R63 to R68, R110). -/

namespace Sys2Proof.Machine

/-- BYTE_IN: the top-level step on a presented byte, as its pseudocode stands (R63). -/
def execByteIn (b : Byte) (ts te : Time) (s : State) : Host.Outcome State Fault Refusal :=
  if isCat b then .next (openPacket b ts s)
  else if s.ctrl = .idle then .next (noOutput s)
  else .next (packetFeed b te s)

/-- FS_01 (R64). -/
def execFs01 (ts : Time) (s : State) : Host.Outcome State Fault Refusal := .next (openPacket 0x01 ts s)

/-- FS_02 (R64). -/
def execFs02 (ts : Time) (s : State) : Host.Outcome State Fault Refusal := .next (openPacket 0x02 ts s)

/-- FS_03 (R64). -/
def execFs03 (ts : Time) (s : State) : Host.Outcome State Fault Refusal := .next (openPacket 0x03 ts s)

/-- FS_05 (R64). -/
def execFs05 (ts : Time) (s : State) : Host.Outcome State Fault Refusal := .next (openPacket 0x05 ts s)

/-- IDLE_DROP: the byte is dropped, and no register is written (R65). -/
def execIdleDrop (b : Byte) (s : State) : Host.Outcome State Fault Refusal :=
  runRow (.idleDrop b) s (noOutput s)

/-- FORWARD: the byte goes to the open packet (R66). -/
def execForward (b : Byte) (te : Time) (s : State) : Host.Outcome State Fault Refusal :=
  runRow (.forward b te) s (packetFeed b te s)

/-- NO_INPUT (R68). -/
def execNoInput (s : State) : Host.Outcome State Fault Refusal := .next (noOutput s)

/-- RESET (R110). -/
def execReset (s : State) : Host.Outcome State Fault Refusal := .next (resetRegisters s)

end Sys2Proof.Machine
end

