-- ==== Sys2Proof/Machine/Dispatch.lean ====
section
/-! DEFINITION. One arm per row of the opcode table. -/

namespace Sys2Proof.Machine

def exec (i : Instr) (s : State) : Host.Outcome State Fault Refusal :=
  match i with
  | .byteIn b ts te => Sys2Proof.Machine.execByteIn b ts te s
  | .fs01 ts => Sys2Proof.Machine.execFs01 ts s
  | .fs02 ts => Sys2Proof.Machine.execFs02 ts s
  | .fs03 ts => Sys2Proof.Machine.execFs03 ts s
  | .fs05 ts => Sys2Proof.Machine.execFs05 ts s
  | .idleDrop b => Sys2Proof.Machine.execIdleDrop b s
  | .forward b te => Sys2Proof.Machine.execForward b te s
  | .hdrStatus te => Sys2Proof.Machine.execHdrStatus te s
  | .hdrNomarker low te => Sys2Proof.Machine.execHdrNomarker low te s
  | .hdrDataF0 label te => Sys2Proof.Machine.execHdrDataF0 label te s
  | .hdrDataF1 label te => Sys2Proof.Machine.execHdrDataF1 label te s
  | .hdrDataF2 label te => Sys2Proof.Machine.execHdrDataF2 label te s
  | .hdrDataF3 label te => Sys2Proof.Machine.execHdrDataF3 label te s
  | .hdrDataF4 label te => Sys2Proof.Machine.execHdrDataF4 label te s
  | .hdrDataF5 label te => Sys2Proof.Machine.execHdrDataF5 label te s
  | .hdrBadflag flag label te => Sys2Proof.Machine.execHdrBadflag flag label te s
  | .sHex0 te => Sys2Proof.Machine.execSHex0 te s
  | .sHex1 te => Sys2Proof.Machine.execSHex1 te s
  | .sHex2 te => Sys2Proof.Machine.execSHex2 te s
  | .sHex3 te => Sys2Proof.Machine.execSHex3 te s
  | .sHex4 te => Sys2Proof.Machine.execSHex4 te s
  | .sHex5 te => Sys2Proof.Machine.execSHex5 te s
  | .sHex6 te => Sys2Proof.Machine.execSHex6 te s
  | .sHex7 te => Sys2Proof.Machine.execSHex7 te s
  | .sHex8 te => Sys2Proof.Machine.execSHex8 te s
  | .sHex9 te => Sys2Proof.Machine.execSHex9 te s
  | .sHexA te => Sys2Proof.Machine.execSHexA te s
  | .sHexB te => Sys2Proof.Machine.execSHexB te s
  | .sHexC te => Sys2Proof.Machine.execSHexC te s
  | .sHexD te => Sys2Proof.Machine.execSHexD te s
  | .sHexE te => Sys2Proof.Machine.execSHexE te s
  | .sHexF te => Sys2Proof.Machine.execSHexF te s
  | .sPayloadNonhex b te => Sys2Proof.Machine.execSPayloadNonhex b te s
  | .sTermCr te => Sys2Proof.Machine.execSTermCr te s
  | .sTermOther b te => Sys2Proof.Machine.execSTermOther b te s
  | .sOverrun b te => Sys2Proof.Machine.execSOverrun b te s
  | .dHex0 te => Sys2Proof.Machine.execDHex0 te s
  | .dHex1 te => Sys2Proof.Machine.execDHex1 te s
  | .dHex2 te => Sys2Proof.Machine.execDHex2 te s
  | .dHex3 te => Sys2Proof.Machine.execDHex3 te s
  | .dHex4 te => Sys2Proof.Machine.execDHex4 te s
  | .dHex5 te => Sys2Proof.Machine.execDHex5 te s
  | .dHex6 te => Sys2Proof.Machine.execDHex6 te s
  | .dHex7 te => Sys2Proof.Machine.execDHex7 te s
  | .dHex8 te => Sys2Proof.Machine.execDHex8 te s
  | .dHex9 te => Sys2Proof.Machine.execDHex9 te s
  | .dHexA te => Sys2Proof.Machine.execDHexA te s
  | .dHexB te => Sys2Proof.Machine.execDHexB te s
  | .dHexC te => Sys2Proof.Machine.execDHexC te s
  | .dHexD te => Sys2Proof.Machine.execDHexD te s
  | .dHexE te => Sys2Proof.Machine.execDHexE te s
  | .dHexF te => Sys2Proof.Machine.execDHexF te s
  | .dPayloadNonhex b te => Sys2Proof.Machine.execDPayloadNonhex b te s
  | .dTermCr te => Sys2Proof.Machine.execDTermCr te s
  | .dTermOther b te => Sys2Proof.Machine.execDTermOther b te s
  | .dOverrun b te => Sys2Proof.Machine.execDOverrun b te s
  | .noInput => Sys2Proof.Machine.execNoInput s
  | .reset => Sys2Proof.Machine.execReset s

end Sys2Proof.Machine
end

