-- ==== Sys2Proof/Machine/Step.lean ====
section
/-! DEFINITION. One step of the block (R63): the row the decoder reads from this step's input ports in the present
context, run once the ports' values are taken. -/

namespace Sys2Proof.Machine

/-- The row this step runs (R59, R63). -/
def State.row (s : State) : Instr := decode s.params s.context s.ports

/-- One step (R63). The row's condition is on the state before the step, and taking the input writes no register of
R17. -/
def step (s : State) : Host.Outcome State Fault Refusal := exec s.row s.takeInput

/-- `s` with the byte `w` presented at the input ports in the next step, in the context in which a byte of its class is
read (log entry 18): the sequencing registers, which play the part of a program counter (R26), are set for it, under a
category that is not STATUS_SOH where the byte is a header. A frame-start byte is read in every context, and sets
none. -/
def State.withFetchWord (s : State) (_nbits w : Nat) : State :=
  let b := BitVec.ofNat 8 w
  let s := { s with input := byteRecord b 0 0 :: s.input }
  if isCat b then s
  else
    let c := wordContext (otherCat s.params) b
    { s with ctrl := c.ctrl, cat := c.cat, sub := c.sub, pos := c.pos }

end Sys2Proof.Machine
end

