-- ==== Sys2Proof/Machine/Ports.lean ====
section
/-! DEFINITION. The output ports of R32 one by one, as a consumer sees them after a step. -/

namespace Sys2Proof.Machine

/-- The output ports (R32). -/
structure OutPorts where
  outValid : Bool
  outKind : BitVec 2
  outErr : BitVec 3
  outCat : Byte
  outLabel : BitVec 4
  outFlag : BitVec 3
  outValue : Word
  outFclass : BitVec 3
  outTs : Time
  outTe : Time
deriving DecidableEq, Repr

/-- The ports that carry a record. -/
def OutRecord.onPorts (r : OutRecord) : OutPorts :=
  ⟨true, r.kind, r.err, r.cat, r.label, r.flag, r.value, r.fclass, r.ts, r.te⟩

/-- The port values a consumer may see after a step that left `s`: with a record, that record; with none, out_valid = 0
and every other port any value (R32, K9; log entry 4). -/
def State.mayDrive (s : State) (p : OutPorts) : Bool :=
  match s.out with
  | some r => p == r.onPorts
  | none => !p.outValid

end Sys2Proof.Machine
end

