-- ==== Sys2Proof/Safety.lean ====
section
/-! DEFINITION. The words the claims are made in: the invariants of R34, the records that R32, R76, R91 and R97 allow, the
observation of a run (R117), the input contract (R115), and the records and states that rows end in. -/

namespace Sys2Proof.Machine

/-! ## The invariants of R34 -/

/-- I1: an open packet's category is in CATS. -/
abbrev State.CatLegal (s : State) : Prop := s.ctrl = .opened → isCat s.cat = true

/-- I2: a packet with no sub-decoder has consumed nothing. -/
abbrev State.FreshEmpty (s : State) : Prop := s.ctrl = .opened → s.sub = .none → s.pos = 0#4 ∧ s.acc = 0#32

/-- I3: an open status packet. -/
abbrev State.StatusLegal (s : State) : Prop :=
  s.ctrl = .opened → s.sub = .status →
    s.cat = s.params.statusSoh ∧ 1#4 ≤ s.pos ∧ s.pos ≤ 5#4 ∧ s.acc.toNat < 16 ^ (s.pos.toNat - 1)

/-- I4: an open data packet. -/
abbrev State.DataLegal (s : State) : Prop :=
  s.ctrl = .opened → s.sub = .data →
    1#4 ≤ s.pos ∧ s.pos ≤ 9#4 ∧ s.hdrFlag ≤ 5#3 ∧ labelDefined s.params s.cat s.hdrLabel = true ∧
      s.acc.toNat < 16 ^ (s.pos.toNat - 1)

/-- I1 to I4 of R34. I5, sub ≠ 3, holds by the type of `sub`. -/
abbrev State.Inv (s : State) : Prop := s.CatLegal ∧ s.FreshEmpty ∧ s.StatusLegal ∧ s.DataLegal

/-! ## Legal records -/

/-- What an output record may be: one of the three kinds, with the error codes, flags and classes that are ever driven,
and 0 in every field that does not apply to its kind (R32, R76, R91, R97, K1, K11). -/
abbrev LegalRecord (r : OutRecord) : Prop :=
  isCat r.cat = true ∧
    ((r.kind = 0#2 ∧ (r.err = 1#3 ∨ r.err = 2#3 ∨ r.err = 5#3 ∨ r.err = 6#3) ∧
        r.label = 0#4 ∧ r.flag = 0#3 ∧ r.value = 0#32 ∧ r.fclass = 0#3) ∨
      (r.kind = 1#2 ∧ r.err = 0#3 ∧ r.label = 0#4 ∧ r.flag = 0#3 ∧ r.value.toNat < 65536 ∧ r.fclass = 0#3) ∨
      (r.kind = 2#2 ∧ r.err = 0#3 ∧ r.flag ≤ 5#3 ∧ r.fclass = (fclass r.value).code ∧ r.fclass ≤ 5#3))

/-! ## The records and states that rows end in, written out for the claims -/

/-- The Error record of the open packet of `s` (R76, R96): the packet's category and start time, and the end time of the
byte that raised the error. -/
def errorRecord (code : BitVec 3) (te : Time) (s : State) : OutRecord where
  kind := 0
  err := code
  cat := s.cat
  label := 0
  flag := 0
  value := 0
  fclass := 0
  ts := s.tStart
  te := te

/-- The Status record of the open packet of `s` (R76, R81). -/
def statusRecord (te : Time) (s : State) : OutRecord where
  kind := 1
  err := 0
  cat := s.cat
  label := 0
  flag := 0
  value := (s.acc.extractLsb' 0 16).setWidth 32
  fclass := 0
  ts := s.tStart
  te := te

/-- The Data record of the open packet of `s` (R76, R87). -/
def dataRecord (te : Time) (s : State) : OutRecord where
  kind := 2
  err := 0
  cat := s.cat
  label := s.hdrLabel
  flag := s.hdrFlag
  value := s.acc
  fclass := (fclass s.acc).code
  ts := s.tStart
  te := te

/-- The state in which the byte at the next position has finished the packet with the record `r`: the position has
advanced and the controller is Idle (R67, R78, R84). The other registers keep their values: the model's choice
(log entry 8), since K10 leaves the registers of an ended packet any value. -/
def finished (sub : SubDecoder) (r : OutRecord) (s : State) : State :=
  { s with sub := sub, pos := s.pos + 1#4, ctrl := .idle, out := some r }

/-- The rows of a hex character, each with the character's value, in the order of the opcode table. -/
def statusHexRows : List ((Time → Instr) × BitVec 4) :=
  [(.sHex0, 0x0#4), (.sHex1, 0x1#4), (.sHex2, 0x2#4), (.sHex3, 0x3#4), (.sHex4, 0x4#4), (.sHex5, 0x5#4), (.sHex6, 0x6#4), (.sHex7, 0x7#4),
   (.sHex8, 0x8#4), (.sHex9, 0x9#4), (.sHexA, 0xA#4), (.sHexB, 0xB#4), (.sHexC, 0xC#4), (.sHexD, 0xD#4), (.sHexE, 0xE#4), (.sHexF, 0xF#4)]

/-- The same for the data payload. -/
def dataHexRows : List ((Time → Instr) × BitVec 4) :=
  [(.dHex0, 0x0#4), (.dHex1, 0x1#4), (.dHex2, 0x2#4), (.dHex3, 0x3#4), (.dHex4, 0x4#4), (.dHex5, 0x5#4), (.dHex6, 0x6#4), (.dHex7, 0x7#4),
   (.dHex8, 0x8#4), (.dHex9, 0x9#4), (.dHexA, 0xA#4), (.dHexB, 0xB#4), (.dHexC, 0xC#4), (.dHexD, 0xD#4), (.dHexE, 0xE#4), (.dHexF, 0xF#4)]

/-- The data header rows of the legal flag codes, each with its code. -/
def dataHeaderRows : List ((BitVec 4 → Time → Instr) × BitVec 3) :=
  [(.hdrDataF0, 0#3), (.hdrDataF1, 1#3), (.hdrDataF2, 2#3), (.hdrDataF3, 3#3), (.hdrDataF4, 4#3), (.hdrDataF5, 5#3)]

/-- The frame-start rows, each with its byte. -/
def frameStartRows : List ((Time → Instr) × Byte) :=
  [(.fs01, 0x01#8), (.fs02, 0x02#8), (.fs03, 0x03#8), (.fs05, 0x05#8)]

/-! ## Which rows may write which register -/

/-- BYTE_IN and FORWARD stand for every row a byte may be read by. -/
def isUmbrella : Instr → Bool
  | .byteIn _ _ _ | .forward _ _ => true
  | _ => false

/-- The rows that rewrite every register: the frame starts and RESET (R64, R110). -/
def opensOrResets : Instr → Bool
  | .fs01 _ | .fs02 _ | .fs03 _ | .fs05 _ | .reset => true
  | _ => false

/-- The data header rows of a legal flag code. -/
def isDataHeader : Instr → Bool
  | .hdrDataF0 _ _ | .hdrDataF1 _ _ | .hdrDataF2 _ _ | .hdrDataF3 _ _ | .hdrDataF4 _ _ | .hdrDataF5 _ _ => true
  | _ => false

/-- The rows of an accepted payload character. -/
def isHexRow (i : Instr) : Bool :=
  (statusHexRows ++ dataHexRows).any fun row => row.1 (encodeTimes i).2 == i

/-! ## Runs -/

/-- `k` steps. -/
def run : Nat → State → Host.Outcome State Fault Refusal
  | 0, s => .next s
  | k + 1, s =>
    match step s with
    | .next t => run k t
    | .fault r => .fault r
    | .refused r => .refused r

/-- The records emitted in `k` steps, in order (R117). -/
def observe : Nat → State → List OutRecord
  | 0, _ => []
  | k + 1, s =>
    match step s with
    | .next t => t.out.toList ++ observe k t
    | .fault _ | .refused _ => []

/-! ## The input -/

/-- The step presents a byte record: rst = 0 and in_valid = 1 (R31). -/
def isByte (r : PortIn) : Bool := !r.rst && r.inValid

/-- A step with no byte and no reset: an "external gap" (R68). -/
def isGap (r : PortIn) : Bool := !r.rst && !r.inValid

/-- The input contract on timestamps: "monotonically non-decreasing across the sequence, with start ≤ end per record"
(R115). -/
def inputContract (l : List PortIn) : Prop :=
  (l.filter isByte).Pairwise (fun a b => a.inTs ≤ b.inTs ∧ a.inTe ≤ b.inTe) ∧
    ∀ r ∈ l, isByte r = true → r.inTs ≤ r.inTe

/-- The open packet's start time is not after the start time of a byte still to come. -/
def State.StartedInTime (s : State) : Prop :=
  s.ctrl = .opened → ∀ r ∈ s.input, isByte r = true → s.tStart ≤ r.inTs

end Sys2Proof.Machine
end

