-- ==== Sys2Proof/Certificates/Slice0/Obligations.lean ====
section
/-! DEFINITION. The statements for the provers, in the order of OBLIGATIONS.json. Each docstring names the rule of spec/
a statement formalises, and says where it rests on a choice of the spec's own (D<n>) or of the model's (log entry <n>). -/

open Sys2Proof Sys2Proof.Machine

/-! ## Reset and the rows of the ports and stream levels -/

/-- R35, values chosen by the spec itself (D5). That no record is driven and nothing is presented before the first step is
the model's choice (log entries 3 and 5). -/
def Obligations.ResetStateHoldsTheSpecifiedValues : Prop :=
  State.reset.ctrl = .idle ∧ State.reset.cat = 0x00 ∧ State.reset.tStart = 0 ∧ State.reset.sub = .none ∧
    State.reset.pos = 0 ∧ State.reset.acc = 0 ∧ State.reset.hdrFlag = 0 ∧ State.reset.hdrLabel = 0 ∧
    State.reset.out = none ∧ State.reset.input = []

/-- R110 (D5, D22, D25): RESET, and the precedence of rst over in_valid and the byte. -/
def Obligations.ResetRowRestoresEveryRegister : Prop :=
  (∀ s : State, exec .reset s = .next
    { params := s.params, ctrl := .idle, cat := 0x00, tStart := 0, sub := .none, pos := 0, acc := 0, hdrFlag := 0
      hdrLabel := 0, out := none, input := s.input }) ∧
  ∀ (s : State) (r : PortIn) (rest : List PortIn), s.input = r :: rest → r.rst = true → step s = .next
    { params := s.params, ctrl := .idle, cat := 0x00, tStart := 0, sub := .none, pos := 0, acc := 0, hdrFlag := 0
      hdrLabel := 0, out := none, input := rest }

/-- R64: FS_01, FS_02, FS_03 and FS_05, in any state; and a step on a presented byte of CATS, whatever the context, is
that. -/
def Obligations.FrameStartOpensANewPacket : Prop :=
  ∀ row ∈ frameStartRows, ∀ (s : State) (ts te : Time),
    exec (row.1 ts) s = .next
      { params := s.params, ctrl := .opened, cat := row.2, tStart := ts, sub := .none, pos := 0, acc := 0, hdrFlag := 0
        hdrLabel := 0, out := none, input := s.input } ∧
    ∀ rest : List PortIn, s.input = byteRecord row.2 ts te :: rest → step s = .next
      { params := s.params, ctrl := .opened, cat := row.2, tStart := ts, sub := .none, pos := 0, acc := 0, hdrFlag := 0
        hdrLabel := 0, out := none, input := rest }

/-- R65: IDLE_DROP. -/
def Obligations.IdleByteIsDropped : Prop :=
  ∀ (s : State) (b : Byte), s.ctrl = .idle → isCat b = false →
    exec (.idleDrop b) s = .next { s with out := none } ∧
    ∀ (ts te : Time) (rest : List PortIn), s.input = byteRecord b ts te :: rest →
      step s = .next { s with out := none, input := rest }

/-- R68 (D1): NO_INPUT. That a step past the end of the presented values is one too is the model's choice
(log entry 3). -/
def Obligations.NoInputWritesNoRegister : Prop :=
  (∀ s : State, exec .noInput s = .next { s with out := none }) ∧
  (∀ (s : State) (r : PortIn) (rest : List PortIn), s.input = r :: rest → r.rst = false → r.inValid = false →
    step s = .next { s with out := none, input := rest }) ∧
  ∀ s : State, s.input = [] → step s = .next { s with out := none }

/-- R63, on a presented byte: BYTE_IN opens a packet, drops the byte, or feeds it to the open packet. -/
def Obligations.ByteInTakesOneOfThreePaths : Prop :=
  ∀ (s : State) (b : Byte) (ts te : Time),
    (isCat b = true → exec (.byteIn b ts te) s = .next
      { params := s.params, ctrl := .opened, cat := b, tStart := ts, sub := .none, pos := 0, acc := 0, hdrFlag := 0
        hdrLabel := 0, out := none, input := s.input }) ∧
    (isCat b = false → s.ctrl = .idle → exec (.byteIn b ts te) s = .next { s with out := none }) ∧
    (isCat b = false → s.ctrl = .opened → exec (.byteIn b ts te) s = .next (packetFeed b te s))

/-- R66 with R71 and R73 to R76: FORWARD classifies the first byte, delegates, and then emits an Error record, emits the
decoded record, or goes on. That an ended packet's registers keep what the decoder wrote is the model's choice
(log entry 8): K10 leaves them any value. -/
def Obligations.ForwardFeedsTheOpenPacket : Prop :=
  ∀ (s : State) (b : Byte) (te : Time), s.ctrl = .opened → isCat b = false →
    ∀ (sub : SubDecoder) (r : SubResult),
      sub = (if s.sub = .none then (if recognize s.params s.cat b then .status else .data) else s.sub) →
      r = (if sub = .status then statusFeed b s else dataFeed b s) →
      exec (.forward b te) s = .next
        (match r.err with
          | some k => { r.regs with sub := sub, ctrl := .idle, out := some (errorRecord k.code te s) }
          | none =>
            if r.complete then
              { r.regs with
                sub := sub, ctrl := .idle,
                out := some (if sub = .status then statusRecord te r.regs else dataRecord te r.regs) }
            else { r.regs with sub := sub, out := none })

/-! ## The rows of a status frame -/

/-- R79: HDR_STATUS. -/
def Obligations.StatusSignatureSelectsTheStatusDecoder : Prop :=
  ∀ (s : State) (te : Time), s.ctrl = .opened → s.sub = .none → s.pos = 0#4 → s.cat = s.params.statusSoh →
    decodePacket s.params s.context (statusHdr s.params) te = .hdrStatus te ∧
    exec (.hdrStatus te) s = .next { s with sub := .status, pos := 1#4, out := none }

/-- From R80, with R78 for the position and R71, R76 and R100 for the packet's end: S_HEX_0 to S_HEX_F shift their nibble
in, S_PAYLOAD_NONHEX raises NonHexPayloadByte. What `finished` says of the registers of the ended packet is the model's
choice (log entry 8): K10 leaves them any value. -/
def Obligations.StatusPayloadRowsShiftOrReject : Prop :=
  ∀ (s : State) (te : Time), s.ctrl = .opened → s.sub = .status → 1#4 ≤ s.pos → s.pos ≤ 4#4 →
    (∀ row ∈ statusHexRows, exec (row.1 te) s = .next
      { s with acc := (s.acc <<< 4) ||| row.2.setWidth 32, pos := s.pos + 1#4, out := none }) ∧
    ∀ b : Byte, isHex b = false → isCat b = false →
      exec (.sPayloadNonhex b te) s = .next (finished .status (errorRecord 1 te s) s)

/-- From R81, with R78 for the position and R67, R71, R76 and R100 for the packet's end: S_TERM_CR emits the Status
record, S_TERM_OTHER raises WrongFrameLength. What `finished` says of the registers of the ended packet is the model's
choice (log entry 8): K10 leaves them any value. -/
def Obligations.StatusTerminatorRowsCompleteOrReject : Prop :=
  ∀ (s : State) (te : Time), s.ctrl = .opened → s.sub = .status → s.pos = 5#4 →
    exec (.sTermCr te) s = .next (finished .status (statusRecord te s) s) ∧
    ∀ b : Byte, b ≠ 0x0D#8 → isCat b = false →
      exec (.sTermOther b te) s = .next (finished .status (errorRecord 2 te s) s)

/-- From R82 and R59 row 16, with R78 for the position and R71, R76 and R100 for the packet's end: S_OVERRUN, which no run
of the block reaches. What `finished` says of the registers of the ended packet is the model's choice (log entry 8): K10
leaves them any value. -/
def Obligations.StatusOverrunRaisesWrongFrameLength : Prop :=
  ∀ (s : State) (b : Byte) (te : Time), s.ctrl = .opened → s.sub = .status → 6#4 ≤ s.pos → isCat b = false →
    exec (.sOverrun b te) s = .next (finished .status (errorRecord 2 te s) s)

/-! ## The rows of a data frame -/

/-- From R85, with R84 for the position and R71, R76 and R100 for the packet's end, row by row: HDR_NOMARKER, HDR_DATA_F0
to HDR_DATA_F5, and HDR_BADFLAG. What `finished` says of the registers of the ended packet is the model's choice (log
entry 8): K10 leaves them any value. -/
def Obligations.DataHeaderRowsAcceptOrReject : Prop :=
  ∀ (s : State) (te : Time), s.ctrl = .opened → s.sub = .none →
    (∀ low : BitVec 7, isCat (low.setWidth 8) = false →
      exec (.hdrNomarker low te) s = .next (finished .data (errorRecord 5 te s) s)) ∧
    (∀ row ∈ dataHeaderRows, ∀ label : BitVec 4, recognize s.params s.cat (headerByte row.2 label) = false →
      exec (row.1 label te) s = .next
        (if labelDefined s.params s.cat label then
          { s with sub := .data, pos := s.pos + 1#4, hdrFlag := row.2, hdrLabel := label, out := none }
        else finished .data (errorRecord 6 te s) s)) ∧
    ∀ (flag : BitVec 3) (label : BitVec 4), 5#3 < flag → recognize s.params s.cat (headerByte flag label) = false →
      exec (.hdrBadflag flag label te) s = .next (finished .data (errorRecord 6 te s) s)

/-- From R85, with R84 for the position and R71, R76 and R100 for the packet's end, byte by byte: what a step makes of any
byte at the header position of a packet that is neither a frame start nor the status signature. The marker bit is tested
first. What `finished` says of the registers of the ended packet is the model's choice (log entry 8): K10 leaves them any
value. -/
def Obligations.DataHeaderByteIsCheckedAndRecorded : Prop :=
  ∀ (s : State) (b : Byte) (ts te : Time) (rest : List PortIn),
    s.ctrl = .opened → s.sub = .none → s.pos = 0#4 → isCat b = false → recognize s.params s.cat b = false →
    s.input = byteRecord b ts te :: rest →
    step s = .next
      (if b.getLsbD 7 = false then { finished .data (errorRecord 5 te s) s with input := rest }
      else if 5#3 < b.extractLsb' 4 3 ∨ labelDefined s.params s.cat (b.extractLsb' 0 4) = false then
        { finished .data (errorRecord 6 te s) s with input := rest }
      else
        { s with
          sub := .data, pos := 1#4, hdrFlag := b.extractLsb' 4 3, hdrLabel := b.extractLsb' 0 4, out := none
          input := rest })

/-- From R86, with R84 for the position and R71, R76 and R100 for the packet's end: D_HEX_0 to D_HEX_F shift their nibble
in, D_PAYLOAD_NONHEX raises NonHexPayloadByte. What `finished` says of the registers of the ended packet is the model's
choice (log entry 8): K10 leaves them any value. -/
def Obligations.DataPayloadRowsShiftOrReject : Prop :=
  ∀ (s : State) (te : Time), s.ctrl = .opened → s.sub = .data → 1#4 ≤ s.pos → s.pos ≤ 8#4 →
    (∀ row ∈ dataHexRows, exec (row.1 te) s = .next
      { s with acc := (s.acc <<< 4) ||| row.2.setWidth 32, pos := s.pos + 1#4, out := none }) ∧
    ∀ b : Byte, isHex b = false → isCat b = false →
      exec (.dPayloadNonhex b te) s = .next (finished .data (errorRecord 1 te s) s)

/-- From R87, with R84 for the position and R67, R71, R76 and R100 for the packet's end: D_TERM_CR emits the Data record,
D_TERM_OTHER raises WrongFrameLength. What `finished` says of the registers of the ended packet is the model's choice (log
entry 8): K10 leaves them any value. -/
def Obligations.DataTerminatorRowsCompleteOrReject : Prop :=
  ∀ (s : State) (te : Time), s.ctrl = .opened → s.sub = .data → s.pos = 9#4 →
    exec (.dTermCr te) s = .next (finished .data (dataRecord te s) s) ∧
    ∀ b : Byte, b ≠ 0x0D#8 → isCat b = false →
      exec (.dTermOther b te) s = .next (finished .data (errorRecord 2 te s) s)

/-- From R88 and R59 row 17, with R84 for the position and R71, R76 and R100 for the packet's end: D_OVERRUN, which no run
of the block reaches. What `finished` says of the registers of the ended packet is the model's choice (log entry 8): K10
leaves them any value. -/
def Obligations.DataOverrunRaisesWrongFrameLength : Prop :=
  ∀ (s : State) (b : Byte) (te : Time), s.ctrl = .opened → s.sub = .data → 10#4 ≤ s.pos → isCat b = false →
    exec (.dOverrun b te) s = .next (finished .data (errorRecord 2 te s) s)

/-! ## Operands, signals and records -/

/-- R50 (the code values are the spec's general knowledge, G1): the alphabet is the sixteen upper-case characters, each
with its value, and nothing else. -/
def Obligations.HexAlphabetIsTheSixteenCharacters : Prop :=
  (∀ n : BitVec 4, isHex (hexChar n) = true ∧ nib (hexChar n) = n) ∧
  (∀ b : Byte, isHex b = true → hexChar (nib b) = b) ∧
  ∀ b : Byte, isHex b = true ↔ (0x30 ≤ b.toNat ∧ b.toNat ≤ 0x39) ∨ (0x41 ≤ b.toNat ∧ b.toNat ≤ 0x46)

/-- R55: the bit-fields of a header byte by their masks, and the legal masked flag values. -/
def Obligations.HeaderFieldsAreTheirMasks : Prop :=
  ∀ b : Byte,
    (markerBit b = true ↔ b &&& 0x80 = 0x80) ∧
    (flagCode b).setWidth 8 = (b &&& 0x70) >>> 4 ∧
    (labelCode b).setWidth 8 = b &&& 0x0F ∧
    (flagCode b ≤ 5#3 ↔ b &&& 0x70 ∈ ([0x00, 0x10, 0x20, 0x30, 0x40, 0x50] : List Byte))

/-- R77: the status signature test. -/
def Obligations.StatusSignatureIsExact : Prop :=
  ∀ (p : Params) (cat b : Byte),
    recognize p cat b = true ↔ cat = p.statusSoh ∧ b = p.statusLabel.setWidth 8 ||| 0x80

/-- R83: each category reads its own table, and no other value is a key. -/
def Obligations.LabelLookupReadsItsOwnCategory : Prop :=
  ∀ (p : Params) (l : Fin 16),
    lookup p 0x01 (BitVec.ofFin l) = p.labels.cat01[l] ∧ lookup p 0x02 (BitVec.ofFin l) = p.labels.cat02[l] ∧
    lookup p 0x03 (BitVec.ofFin l) = p.labels.cat03[l] ∧ lookup p 0x05 (BitVec.ofFin l) = p.labels.cat05[l] ∧
    ∀ c : Byte, isCat c = false → lookup p c (BitVec.ofFin l) = none

/-- R74: the error and the stop time after a sub-decoder's answer. An error sets the stop time; completion sets it if no
error has. -/
def Obligations.StopTimeIsSetByErrorOrCompletion : Prop :=
  ∀ (r : SubResult) (te : Time),
    (signalsOf r te).err = r.err ∧
    (∀ k, r.err = some k → (signalsOf r te).tStop = some te) ∧
    (r.err = none → r.complete = true → (signalsOf r te).tStop = some te) ∧
    (r.err = none → r.complete = false → (signalsOf r te).tStop = none)

/-- From R100, with R71, R74 and R76: an error takes effect in the step that raised it. That it does so also where the
packet is complete is the spec's own decision D7 (log entry 10). That the ended packet's registers keep what the
sub-decoder wrote, with `sub` written, is the model's choice (log entry 8): K10 leaves them any value. -/
def Obligations.ErrorEndsThePacketAtOnce : Prop :=
  ∀ (sub : SubDecoder) (te : Time) (r : SubResult) (k : ErrorKind), r.err = some k →
    conclude sub te r = { r.regs with sub := sub, ctrl := .idle, out := some (errorRecord k.code te r.regs) }

/-- R76 (D7, D8, D9): the record of each kind, the error first. -/
def Obligations.RecordIsBuiltFromTheFinalState : Prop :=
  ∀ (g : Signals) (sub : SubDecoder) (t : Time) (s : State),
    (∀ k, g.err = some k → buildRecord g sub t s = errorRecord k.code t s) ∧
    (g.err = none → sub = .status → buildRecord g sub t s =
      ⟨1, 0, s.cat, 0, 0, g.value16.setWidth 32, 0, s.tStart, t⟩) ∧
    (g.err = none → sub = .data → buildRecord g sub t s =
      ⟨2, 0, s.cat, s.hdrLabel, s.hdrFlag, g.word32, (fclass g.word32).code, s.tStart, t⟩)

/-- R32 with K9: with a record the ports show it; with none, out_valid is 0 and nothing is said of the other ports
(log entry 4). -/
def Obligations.OutputPortsShowTheRecord : Prop :=
  ∀ (s : State) (p : OutPorts),
    (∀ r, s.out = some r → (s.mayDrive p = true ↔
      p = ⟨true, r.kind, r.err, r.cat, r.label, r.flag, r.value, r.fclass, r.ts, r.te⟩)) ∧
    (s.out = none → (s.mayDrive p = true ↔ p.outValid = false))

/-! ## The decode map -/

/-- R63, and the decoder around exec: a step takes the next port values, decodes them in the present context and runs the
row; with none left it runs NO_INPUT (log entry 3). -/
def Obligations.StepRunsTheDecodedRow : Prop :=
  (∀ (s : State) (r : PortIn) (rest : List PortIn), s.input = r :: rest →
    step s = exec (decode s.params s.context r) { s with input := rest }) ∧
  ∀ s : State, s.input = [] → step s = exec .noInput s

/-- R59: some words written out from the encoding tables, each in its context. -/
def Obligations.WrittenOutWordsDecode : Prop :=
  ∀ p : Params, p.statusSoh = 0x01 → p.statusLabel = 0x0F →
    decode p ⟨.opened, 0x02, .data, 4⟩ ⟨false, true, 0x03, 7, 8⟩ = .fs03 7 ∧
    decode p ⟨.idle, 0x00, .none, 0⟩ ⟨false, true, 0x33, 7, 8⟩ = .idleDrop 0x33 ∧
    decode p ⟨.opened, 0x01, .none, 0⟩ ⟨false, true, 0x8F, 7, 8⟩ = .hdrStatus 8 ∧
    decode p ⟨.opened, 0x02, .none, 0⟩ ⟨false, true, 0x8F, 7, 8⟩ = .hdrDataF0 0xF 8 ∧
    decode p ⟨.opened, 0x02, .none, 0⟩ ⟨false, true, 0xD2, 7, 8⟩ = .hdrDataF5 0x2 8 ∧
    decode p ⟨.opened, 0x02, .none, 0⟩ ⟨false, true, 0xE3, 7, 8⟩ = .hdrBadflag 6 0x3 8 ∧
    decode p ⟨.opened, 0x01, .status, 3⟩ ⟨false, true, 0x41, 7, 8⟩ = .sHexA 8 ∧
    decode p ⟨.opened, 0x02, .data, 9⟩ ⟨false, true, 0x0D, 7, 8⟩ = .dTermCr 8 ∧
    decode p ⟨.opened, 0x02, .data, 9⟩ ⟨true, true, 0x0D, 7, 8⟩ = .reset ∧
    decode p ⟨.opened, 0x02, .data, 9⟩ ⟨false, false, 0x0D, 7, 8⟩ = .noInput

/-- R59 and the opcode table: the decoder reads every selected row from the word the encoder writes for it, each row at
its own level (BYTE_IN from the ports, FORWARD from the stream, every other row from the whole decoder). -/
def Obligations.DecodeInvertsEncode : Prop :=
  ∀ (p : Params) (c : Context) (i : Instr), selected p c i = true →
    match i with
    | .byteIn b ts te => decodePort (encode p (.byteIn b ts te)) = .byteIn b ts te
    | .forward b te =>
      decodeStream c (encode p (.forward b te)).inByte (encode p (.forward b te)).inTs (encode p (.forward b te)).inTe =
        .forward b te
    | i => decode p c (encode p i) = i

/-- R59 and R70: every input in every context reads as a row whose condition holds there, and the row stands for the byte
presented. -/
def Obligations.EveryInputReadsAsASelectedRow : Prop :=
  ∀ (p : Params) (c : Context) (r : PortIn),
    selected p c (decode p c r) = true ∧
    (isByte r = true → encodeByte p (decode p c r) = some r.inByte) ∧
    (r.rst = true → decode p c r = .reset) ∧ (isGap r = true → decode p c r = .noInput)

/-- Log entry 6: a row has its effect where R59 selects it, and is stopped by name everywhere else. -/
def Obligations.RowRunsExactlyWhereSelected : Prop :=
  ∀ (i : Instr) (s : State),
    (selected s.params s.context i = true → ∃ t, exec i s = .next t) ∧
    (selected s.params s.context i = false → exec i s = .fault .rowNotSelected)

/-! ## The rows and the pseudocode -/

/-- R59 rows 1 and 2 against R63: the stream-level rows do what BYTE_IN does, in every state. -/
def Obligations.StreamRowsAgreeWithByteIn : Prop :=
  ∀ (s : State) (b : Byte) (ts te : Time),
    exec (decodeStream s.context b ts te) s = exec (.byteIn b ts te) s

/-- R59 rows 3 to 17 against R66 and R71 to R88: the packet-level rows do what packet_feed does. -/
def Obligations.PacketRowsAgreeWithForward : Prop :=
  ∀ (s : State) (b : Byte) (te : Time), s.ctrl = .opened → isCat b = false → (s.sub = .none → s.pos = 0#4) →
    exec (decodePacket s.params s.context b te) s = exec (.forward b te) s

/-- R63: the step is the top-level pseudocode, from every state that meets the invariants of R34. -/
def Obligations.StepIsTheTopLevelPseudocode : Prop :=
  ∀ (s : State) (r : PortIn) (rest : List PortIn), s.Inv → s.input = r :: rest →
    step s = .next
      (if r.rst = true then resetRegisters { s with input := rest }
      else if r.inValid = false then noOutput { s with input := rest }
      else if r.inByte = 0x01#8 ∨ r.inByte = 0x02#8 ∨ r.inByte = 0x03#8 ∨ r.inByte = 0x05#8 then
        openPacket r.inByte r.inTs { s with input := rest }
      else if s.ctrl = .idle then noOutput { s with input := rest }
      else packetFeed r.inByte r.inTe { s with input := rest })

/-! ## Invariants and frames -/

/-- R70 and R101: no input makes the block hang or fault, in any state. -/
def Obligations.StepNeverStops : Prop :=
  ∀ s : State, ∃ t, step s = .next t

/-- R34 at reset: the reset state and every RESET step meet the invariants. -/
def Obligations.ResetMeetsTheInvariants : Prop :=
  State.reset.Inv ∧ ∀ s t : State, exec .reset s = .next t → t.Inv

/-- R34: every step keeps the invariants I1 to I4. -/
def Obligations.StepKeepsTheInvariants : Prop :=
  ∀ s t : State, s.Inv → step s = .next t → t.Inv

/-- R32, R76, R91, R97, with K1 and K11: every record driven is of one of the three kinds, with the codes and zeroes of its
kind. MalformedStatusValue and MalformedFloatValue are never driven. -/
def Obligations.EveryRecordIsLegal : Prop :=
  ∀ (s t : State) (r : OutRecord), s.Inv → step s = .next t → t.out = some r → LegalRecord r

/-- R27 and R112 (D21): no row, and no run of steps, writes a configuration parameter. -/
def Obligations.ParametersNeverChange : Prop :=
  (∀ (i : Instr) (s t : State), exec i s = .next t → t.params = s.params ∧ t.input = s.input) ∧
  ∀ (k : Nat) (s t : State), run k s = .next t → t.params = s.params ∧ t.input = s.input.drop k

/-- R19 to R22: while a packet stays open, its category and start time are constant, its sub-decoder is chosen once, and
its position counts the bytes. -/
def Obligations.OpenPacketIsConstantWhileItLasts : Prop :=
  ∀ s t : State, step s = .next t → s.ctrl = .opened → t.ctrl = .opened →
    ¬ (isByte s.ports = true ∧ isCat s.ports.inByte = true) →
    t.cat = s.cat ∧ t.tStart = s.tStart ∧ (s.sub ≠ .none → t.sub = s.sub) ∧
      (isByte s.ports = true → t.sub ≠ .none ∧ t.pos = s.pos + 1#4) ∧
      (isByte s.ports = false → t.sub = s.sub ∧ t.pos = s.pos)

/-- R23 and R37: only a frame start, a reset and an accepted payload character write the accumulator. -/
def Obligations.AccumulatorIsWrittenOnlyByNibbles : Prop :=
  ∀ (i : Instr) (s t : State), exec i s = .next t → isUmbrella i = false → opensOrResets i = false →
    (isHexRow i = false → t.acc = s.acc) ∧
    (isHexRow i = true → ∃ n : BitVec 4, encodeByte s.params i = some (hexChar n) ∧
      t.acc = (s.acc <<< 4) ||| n.setWidth 32)

/-- R24 and R37: only a frame start, a reset and an accepted data header write the header registers. -/
def Obligations.HeaderRegistersAreWrittenOnlyByDataHeaders : Prop :=
  ∀ (i : Instr) (s t : State), exec i s = .next t → isUmbrella i = false → opensOrResets i = false →
    (t.hdrFlag = s.hdrFlag ∧ t.hdrLabel = s.hdrLabel) ∨
      (isDataHeader i = true ∧ t.out = none ∧ labelDefined s.params s.cat t.hdrLabel = true ∧
        encodeByte s.params i = some (headerByte t.hdrFlag t.hdrLabel))

/-- R67: a record leaves exactly in the step of the byte that finishes the packet, and carries the packet's category and
start time and that byte's end time (R76). -/
def Obligations.RecordLeavesInTheFinishingStep : Prop :=
  ∀ s t : State, step s = .next t →
    (∀ r, t.out = some r → s.ctrl = .opened ∧ isByte s.ports = true ∧ isCat s.ports.inByte = false ∧
      t.ctrl = .idle ∧ r.cat = s.cat ∧ r.ts = s.tStart ∧ r.te = s.ports.inTe) ∧
    (s.ctrl = .opened → isByte s.ports = true → t.ctrl = .idle → t.out.isSome = true)

/-- From R80, R86 and R100, with R78 and R84 (the position advances before the checks), R71 and R76, step by step: a byte
outside the alphabet at any payload position of either frame ends the packet with NonHexPayloadByte and that byte's end
time. That nothing else of the ended packet changes is the model's choice (log entry 8): K10 leaves its registers any
value. -/
def Obligations.NonHexPayloadByteEndsThePacket : Prop :=
  ∀ (s : State) (b : Byte) (ts te : Time) (rest : List PortIn),
    s.ctrl = .opened → ((s.sub = .status ∧ 1#4 ≤ s.pos ∧ s.pos ≤ 4#4) ∨ (s.sub = .data ∧ 1#4 ≤ s.pos ∧ s.pos ≤ 8#4)) →
    isCat b = false → isHex b = false → s.input = byteRecord b ts te :: rest →
    step s = .next
      { s with pos := s.pos + 1#4, ctrl := .idle, out := some ⟨0, 1, s.cat, 0, 0, 0, 0, s.tStart, te⟩, input := rest }

/-! ## Runs -/

/-- R95 with R39, R53 and R81: from any state, the status frame of any 16-bit value, with any times and whatever follows,
yields exactly that Status record. -/
def Obligations.StatusFrameDecodesToItsValue : Prop :=
  ∀ (s : State) (v : Half) (ts te : Nat → Time) (rest : List PortIn), isCat s.params.statusSoh = true →
    s.input = streamFrom ts te 0 (statusForm s.params s.params.statusSoh v) ++ rest →
    observe 7 s = [⟨1, 0, s.params.statusSoh, 0, 0, v.setWidth 32, 0, ts 0, te 6⟩] ∧
    ∃ t, run 7 s = .next t ∧ t.ctrl = .idle ∧ t.input = rest

/-- R95 with R39, R40, R54, R87 and R93: from any state, the data frame of any 32-bit word (NaN words included) under a
legal header yields exactly that Data record, the word unchanged. -/
def Obligations.DataFrameDecodesToItsWord : Prop :=
  ∀ (s : State) (c : Byte) (f : BitVec 3) (l : BitVec 4) (w : Word) (ts te : Nat → Time) (rest : List PortIn),
    isCat c = true → f ≤ 5#3 → labelDefined s.params c l = true → recognize s.params c (headerByte f l) = false →
    s.input = streamFrom ts te 0 (dataForm c f l w) ++ rest →
    observe 11 s = [⟨2, 0, c, l, f, w, (fclass w).code, ts 0, te 10⟩] ∧
    ∃ t, run 11 s = .next t ∧ t.ctrl = .idle ∧ t.input = rest

/-- R68 (D1): steps with no input, wherever they fall, change no record and no order of records. -/
def Obligations.GapsDoNotAffectDecoding : Prop :=
  ∀ s : State,
    observe s.input.length s =
      observe (s.input.filter fun r => !isGap r).length { s with input := s.input.filter fun r => !isGap r }

/-- R18: while Idle no rule reads `cat`, `t_start`, `sub`, `pos`, `acc`, `hdr_flag` or `hdr_label`: two Idle states that
differ in them alone emit the same records on every input. -/
def Obligations.StaleRegistersAreUnobservable : Prop :=
  ∀ (s t : State) (k : Nat), s.ctrl = .idle → t.ctrl = .idle → s.params = t.params → s.input = t.input →
    observe k s = observe k t

/-- R47: what a step does depends on no later input. -/
def Obligations.StepDependsOnNoLaterInput : Prop :=
  ∀ (s t : State) (r : PortIn) (later later' : List PortIn),
    step { s with input := r :: later } = .next t →
    step { s with input := r :: later' } = .next { t with input := later' }

/-- R117 (D26), with log entry 3: with no input left no record is ever emitted, and an open packet stays open. -/
def Obligations.EndOfStreamEmitsNothing : Prop :=
  ∀ (s : State) (k : Nat), s.input = [] →
    observe k s = [] ∧ run (k + 1) s = .next { s with out := none }

/-- R111 and R65, with R68 for the gaps: while Idle, the bytes before the next frame start, and the gaps among them,
produce no record and write no register, whatever the input holds after them. -/
def Obligations.BytesBeforeAFrameStartAreDropped : Prop :=
  ∀ (s : State) (k : Nat), s.ctrl = .idle → k < s.input.length →
    (∀ r ∈ s.input.take (k + 1), isGap r = true ∨ (isByte r = true ∧ isCat r.inByte = false)) →
    observe (k + 1) s = [] ∧ run (k + 1) s = .next { s with out := none, input := s.input.drop (k + 1) }

/-- R22 and R58: an open packet that meets the invariants of R34 is finished, with a record, by at most ten bytes that
start no frame. -/
def Obligations.PacketIsFinishedWithinTenBytes : Prop :=
  ∀ s : State, s.Inv → s.ctrl = .opened → 10 ≤ s.input.length →
    (∀ r ∈ s.input.take 10, isByte r = true ∧ isCat r.inByte = false) →
    ∃ k t, k ≤ 10 ∧ run k s = .next t ∧ t.ctrl = .idle ∧ t.out.isSome = true

/-- R33 and R115: under the input contract, which the driver owes and every step keeps, no record stops before it
starts. -/
def Obligations.RecordTimesAreOrdered : Prop :=
  ∀ s t : State, inputContract s.input → s.StartedInTime → step s = .next t →
    inputContract t.input ∧ t.StartedInTime ∧ ∀ r, t.out = some r → r.ts ≤ r.te

/-! ## The reading of a data word -/

/-- R90 and R91 (general knowledge G2 and G3, codes D11): the six classes by exponent and fraction. -/
def Obligations.FloatClassesAreTheirConditions : Prop :=
  ∀ w : Word,
    ((fclass w).code = 0#3 ↔ exponentField w = 0#8 ∧ fractionField w = 0#23) ∧
    ((fclass w).code = 1#3 ↔ exponentField w = 0#8 ∧ fractionField w ≠ 0#23) ∧
    ((fclass w).code = 2#3 ↔ 1#8 ≤ exponentField w ∧ exponentField w ≤ 254#8) ∧
    ((fclass w).code = 3#3 ↔ exponentField w = 255#8 ∧ fractionField w = 0#23) ∧
    ((fclass w).code = 4#3 ↔ exponentField w = 255#8 ∧ w.getLsbD 22 = true) ∧
    ((fclass w).code = 5#3 ↔ exponentField w = 255#8 ∧ w.getLsbD 22 = false ∧ fractionField w ≠ 0#23)

/-- R92 (general knowledge G4): a finite word denotes its sign, its integer significand and a power of two. -/
def Obligations.FiniteWordsAreScaledIntegers : Prop :=
  ∀ w : Word,
    (fclass w = .subnormal → floatValue w =
      .finite ((if w.getLsbD 31 then -1 else 1) * (fractionField w).toNat * (2 : Rat) ^ (-149 : Int))) ∧
    (fclass w = .normal → floatValue w =
      .finite ((if w.getLsbD 31 then -1 else 1) * (2 ^ 23 + (fractionField w).toNat) *
        (2 : Rat) ^ ((exponentField w).toNat - 150 : Int)))

/-- R92 and R93 (general knowledge G4): no two words denote the same value, so nothing is lost when the value is read from
the word; the two zeros and the NaN payloads are distinct. -/
def Obligations.DistinctWordsDenoteDistinctValues : Prop :=
  ∀ v w : Word, floatValue v = floatValue w → v = w
end

