-- ==== Sys2Proof/Laws/Decode.lean ====
section
/-! SUPPORT. The small facts of the decoder: the hex alphabet, the header fields, and the byte rows. -/

namespace Sys2Proof

/-- The sixteen upper-case characters are in the alphabet, each with its own value (R50). -/
theorem isHex_hexChar (n : BitVec 4) : isHex (hexChar n) = true := by revert n; decide

theorem nib_hexChar (n : BitVec 4) : nib (hexChar n) = n := by revert n; decide

theorem isCat_hexChar (n : BitVec 4) : isCat (hexChar n) = false := by revert n; decide

theorem isCat_of_isHex {b : Byte} (h : isHex b = true) : isCat b = false := by revert b; decide

theorem isCat_cr : isCat Config.cr = false := by decide

theorem isHex_cr : isHex Config.cr = false := by decide

/-- A byte with the marker bit starts no frame. -/
theorem isCat_of_markerBit {b : Byte} (h : markerBit b = true) : isCat b = false := by revert b; decide

theorem markerBit_headerByte (f : BitVec 3) (l : BitVec 4) : markerBit (headerByte f l) = true := by revert f l; decide

theorem flagCode_headerByte (f : BitVec 3) (l : BitVec 4) : flagCode (headerByte f l) = f := by revert f l; decide

theorem labelCode_headerByte (f : BitVec 3) (l : BitVec 4) : labelCode (headerByte f l) = l := by revert f l; decide

/-- A header byte with marker set is its flag and label (R55). -/
theorem headerByte_of_markerBit {b : Byte} (h : markerBit b = true) : headerByte (flagCode b) (labelCode b) = b := by
  revert b; decide

/-- A header byte with bit 7 clear is its low seven bits. -/
theorem lowBits_setWidth {b : Byte} (h : markerBit b = false) : (lowBits b).setWidth 8 = b := by revert b; decide

theorem markerBit_statusHdr (p : Params) : markerBit (statusHdr p) = true := by
  unfold statusHdr
  generalize p.statusLabel = l
  revert l; decide

theorem recognize_eq_true {p : Params} {cat b : Byte} :
    recognize p cat b = true ↔ cat = p.statusSoh ∧ b = statusHdr p := by
  simp [recognize, Bool.and_eq_true, beq_iff_eq]

theorem recognize_otherCat (p : Params) (b : Byte) : recognize p (otherCat p) b = false := by
  have h : otherCat p ≠ p.statusSoh := by
    unfold otherCat
    split <;> rename_i h
    · rw [h]; decide
    · exact fun e => h e.symm
  simp [recognize, h]

/-- A presented frame-start byte is its frame-start row in every context (R59 row 1). -/
theorem decode_frameStart (p : Params) (c : Context) {b : Byte} (ts te : Time) (h : isCat b = true) :
    decode p c (byteRecord b ts te) = frameStartRow b ts := by
  have e : decodePort (byteRecord b ts te) = .byteIn b ts te := rfl
  have e' : decodeStream c b ts te = frameStartRow b ts := if_pos h
  simp only [decode, e, e']
  unfold frameStartRow
  split_ifs <;> rfl

/-- Any other byte while Idle is dropped (R59 row 2). -/
theorem decode_idle (p : Params) {c : Context} {b : Byte} (ts te : Time) (h : isCat b = false) (hc : c.ctrl = .idle) :
    decode p c (byteRecord b ts te) = .idleDrop b := by
  simp [decode, decodePort, byteRecord, decodeStream, h, hc]

/-- Any other byte for an open packet is a row of the packet's context (R59 rows 3 to 17). -/
theorem decode_opened (p : Params) {c : Context} {b : Byte} (ts te : Time) (h : isCat b = false)
    (hc : c.ctrl = .opened) : decode p c (byteRecord b ts te) = decodePacket p c b te := by
  simp [decode, decodePort, byteRecord, decodeStream, h, hc]

/-- The decoder reads the configuration through the status signature alone. -/
theorem decodeHeader_of_not_recognize {p q : Params} {cat cat' b : Byte} (te : Time)
    (h : recognize p cat b = false) (h' : recognize q cat' b = false) :
    decodeHeader p cat b te = decodeHeader q cat' b te := by
  simp [decodeHeader, h, h']

open Machine in
/-- A table word placed by `withFetchWord` is the row the next step runs, whatever the state and the configuration. -/
theorem row_withFetchWord (s : State) (nbits w : Nat) (h : nbits ≤ 8 ∧ w < 256) :
    decodeTableWord nbits w = some (s.withFetchWord nbits w).row := by
  simp only [decodeTableWord, decodeWord, if_pos h, State.withFetchWord, State.row, Except.toOption]
  generalize BitVec.ofNat 8 w = b
  congr 1
  by_cases hc : isCat b = true
  · simp only [hc, if_true, State.ports, List.headD_cons, decode_frameStart _ _ _ _ hc]
  · have hf : isCat b = false := by simpa using hc
    by_cases hx : isHex b = true
    · simp [decode, decodePort, byteRecord, decodeStream, State.ports, State.context, wordContext, hf, hx, decodePacket]
    · by_cases hr : b = Config.cr
      · subst hr
        simp [decode, decodePort, byteRecord, decodeStream, State.ports, State.context, wordContext, hf, hx, decodePacket]
      · simpa [decode, decodePort, byteRecord, decodeStream, State.ports, State.context, wordContext, hf, hx, hr,
          decodePacket] using decodeHeader_of_not_recognize 0 (recognize_otherCat _ b) (recognize_otherCat _ b)

end Sys2Proof
end

