-- ==== Sys2Proof/Laws/State.lean ====
section
/-! SUPPORT. What each register operation leaves in each field of the state: one lemma per field per operation, true by
unfolding it. No later proof unfolds a record update. -/

namespace Sys2Proof.Machine

@[simp] theorem State.takeInput_params (s : State) : s.takeInput.params = s.params := rfl
@[simp] theorem State.takeInput_ctrl (s : State) : s.takeInput.ctrl = s.ctrl := rfl
@[simp] theorem State.takeInput_cat (s : State) : s.takeInput.cat = s.cat := rfl
@[simp] theorem State.takeInput_tStart (s : State) : s.takeInput.tStart = s.tStart := rfl
@[simp] theorem State.takeInput_sub (s : State) : s.takeInput.sub = s.sub := rfl
@[simp] theorem State.takeInput_pos (s : State) : s.takeInput.pos = s.pos := rfl
@[simp] theorem State.takeInput_acc (s : State) : s.takeInput.acc = s.acc := rfl
@[simp] theorem State.takeInput_hdrFlag (s : State) : s.takeInput.hdrFlag = s.hdrFlag := rfl
@[simp] theorem State.takeInput_hdrLabel (s : State) : s.takeInput.hdrLabel = s.hdrLabel := rfl
@[simp] theorem State.takeInput_out (s : State) : s.takeInput.out = s.out := rfl
@[simp] theorem State.takeInput_input (s : State) : s.takeInput.input = s.input.tail := rfl

@[simp] theorem noOutput_params (s : State) : (noOutput s).params = s.params := rfl
@[simp] theorem noOutput_ctrl (s : State) : (noOutput s).ctrl = s.ctrl := rfl
@[simp] theorem noOutput_cat (s : State) : (noOutput s).cat = s.cat := rfl
@[simp] theorem noOutput_tStart (s : State) : (noOutput s).tStart = s.tStart := rfl
@[simp] theorem noOutput_sub (s : State) : (noOutput s).sub = s.sub := rfl
@[simp] theorem noOutput_pos (s : State) : (noOutput s).pos = s.pos := rfl
@[simp] theorem noOutput_acc (s : State) : (noOutput s).acc = s.acc := rfl
@[simp] theorem noOutput_hdrFlag (s : State) : (noOutput s).hdrFlag = s.hdrFlag := rfl
@[simp] theorem noOutput_hdrLabel (s : State) : (noOutput s).hdrLabel = s.hdrLabel := rfl
@[simp] theorem noOutput_out (s : State) : (noOutput s).out = none := rfl
@[simp] theorem noOutput_input (s : State) : (noOutput s).input = s.input := rfl

@[simp] theorem openPacket_params (b : Byte) (ts : Time) (s : State) : (openPacket b ts s).params = s.params := rfl
@[simp] theorem openPacket_ctrl (b : Byte) (ts : Time) (s : State) : (openPacket b ts s).ctrl = .opened := rfl
@[simp] theorem openPacket_cat (b : Byte) (ts : Time) (s : State) : (openPacket b ts s).cat = b := rfl
@[simp] theorem openPacket_tStart (b : Byte) (ts : Time) (s : State) : (openPacket b ts s).tStart = ts := rfl
@[simp] theorem openPacket_sub (b : Byte) (ts : Time) (s : State) : (openPacket b ts s).sub = .none := rfl
@[simp] theorem openPacket_pos (b : Byte) (ts : Time) (s : State) : (openPacket b ts s).pos = 0 := rfl
@[simp] theorem openPacket_acc (b : Byte) (ts : Time) (s : State) : (openPacket b ts s).acc = 0 := rfl
@[simp] theorem openPacket_hdrFlag (b : Byte) (ts : Time) (s : State) : (openPacket b ts s).hdrFlag = 0 := rfl
@[simp] theorem openPacket_hdrLabel (b : Byte) (ts : Time) (s : State) : (openPacket b ts s).hdrLabel = 0 := rfl
@[simp] theorem openPacket_out (b : Byte) (ts : Time) (s : State) : (openPacket b ts s).out = none := rfl
@[simp] theorem openPacket_input (b : Byte) (ts : Time) (s : State) : (openPacket b ts s).input = s.input := rfl

@[simp] theorem resetRegisters_params (s : State) : (resetRegisters s).params = s.params := rfl
@[simp] theorem resetRegisters_ctrl (s : State) : (resetRegisters s).ctrl = .idle := rfl
@[simp] theorem resetRegisters_cat (s : State) : (resetRegisters s).cat = 0x00 := rfl
@[simp] theorem resetRegisters_tStart (s : State) : (resetRegisters s).tStart = 0 := rfl
@[simp] theorem resetRegisters_sub (s : State) : (resetRegisters s).sub = .none := rfl
@[simp] theorem resetRegisters_pos (s : State) : (resetRegisters s).pos = 0 := rfl
@[simp] theorem resetRegisters_acc (s : State) : (resetRegisters s).acc = 0 := rfl
@[simp] theorem resetRegisters_hdrFlag (s : State) : (resetRegisters s).hdrFlag = 0 := rfl
@[simp] theorem resetRegisters_hdrLabel (s : State) : (resetRegisters s).hdrLabel = 0 := rfl
@[simp] theorem resetRegisters_out (s : State) : (resetRegisters s).out = none := rfl
@[simp] theorem resetRegisters_input (s : State) : (resetRegisters s).input = s.input := rfl

@[simp] theorem advance_params (s : State) : (advance s).params = s.params := rfl
@[simp] theorem advance_ctrl (s : State) : (advance s).ctrl = s.ctrl := rfl
@[simp] theorem advance_cat (s : State) : (advance s).cat = s.cat := rfl
@[simp] theorem advance_tStart (s : State) : (advance s).tStart = s.tStart := rfl
@[simp] theorem advance_sub (s : State) : (advance s).sub = s.sub := rfl
@[simp] theorem advance_pos (s : State) : (advance s).pos = s.pos + 1#4 := rfl
@[simp] theorem advance_acc (s : State) : (advance s).acc = s.acc := rfl
@[simp] theorem advance_hdrFlag (s : State) : (advance s).hdrFlag = s.hdrFlag := rfl
@[simp] theorem advance_hdrLabel (s : State) : (advance s).hdrLabel = s.hdrLabel := rfl
@[simp] theorem advance_out (s : State) : (advance s).out = s.out := rfl
@[simp] theorem advance_input (s : State) : (advance s).input = s.input := rfl

@[simp] theorem shiftNibble_params (n : BitVec 4) (s : State) : (shiftNibble n s).params = s.params := rfl
@[simp] theorem shiftNibble_ctrl (n : BitVec 4) (s : State) : (shiftNibble n s).ctrl = s.ctrl := rfl
@[simp] theorem shiftNibble_cat (n : BitVec 4) (s : State) : (shiftNibble n s).cat = s.cat := rfl
@[simp] theorem shiftNibble_tStart (n : BitVec 4) (s : State) : (shiftNibble n s).tStart = s.tStart := rfl
@[simp] theorem shiftNibble_sub (n : BitVec 4) (s : State) : (shiftNibble n s).sub = s.sub := rfl
@[simp] theorem shiftNibble_pos (n : BitVec 4) (s : State) : (shiftNibble n s).pos = s.pos := rfl
@[simp] theorem shiftNibble_acc (n : BitVec 4) (s : State) : (shiftNibble n s).acc = (s.acc <<< 4) ||| n.setWidth 32 := rfl
@[simp] theorem shiftNibble_hdrFlag (n : BitVec 4) (s : State) : (shiftNibble n s).hdrFlag = s.hdrFlag := rfl
@[simp] theorem shiftNibble_hdrLabel (n : BitVec 4) (s : State) : (shiftNibble n s).hdrLabel = s.hdrLabel := rfl
@[simp] theorem shiftNibble_out (n : BitVec 4) (s : State) : (shiftNibble n s).out = s.out := rfl
@[simp] theorem shiftNibble_input (n : BitVec 4) (s : State) : (shiftNibble n s).input = s.input := rfl

@[simp] theorem recordHeader_params (flag : BitVec 3) (label : BitVec 4) (s : State) : (recordHeader flag label s).params = s.params := rfl
@[simp] theorem recordHeader_ctrl (flag : BitVec 3) (label : BitVec 4) (s : State) : (recordHeader flag label s).ctrl = s.ctrl := rfl
@[simp] theorem recordHeader_cat (flag : BitVec 3) (label : BitVec 4) (s : State) : (recordHeader flag label s).cat = s.cat := rfl
@[simp] theorem recordHeader_tStart (flag : BitVec 3) (label : BitVec 4) (s : State) : (recordHeader flag label s).tStart = s.tStart := rfl
@[simp] theorem recordHeader_sub (flag : BitVec 3) (label : BitVec 4) (s : State) : (recordHeader flag label s).sub = s.sub := rfl
@[simp] theorem recordHeader_pos (flag : BitVec 3) (label : BitVec 4) (s : State) : (recordHeader flag label s).pos = s.pos := rfl
@[simp] theorem recordHeader_acc (flag : BitVec 3) (label : BitVec 4) (s : State) : (recordHeader flag label s).acc = s.acc := rfl
@[simp] theorem recordHeader_hdrFlag (flag : BitVec 3) (label : BitVec 4) (s : State) : (recordHeader flag label s).hdrFlag = flag := rfl
@[simp] theorem recordHeader_hdrLabel (flag : BitVec 3) (label : BitVec 4) (s : State) : (recordHeader flag label s).hdrLabel = label := rfl
@[simp] theorem recordHeader_out (flag : BitVec 3) (label : BitVec 4) (s : State) : (recordHeader flag label s).out = s.out := rfl
@[simp] theorem recordHeader_input (flag : BitVec 3) (label : BitVec 4) (s : State) : (recordHeader flag label s).input = s.input := rfl

@[simp] theorem emit_params (rec : OutRecord) (s : State) : (emit rec s).params = s.params := rfl
@[simp] theorem emit_ctrl (rec : OutRecord) (s : State) : (emit rec s).ctrl = .idle := rfl
@[simp] theorem emit_cat (rec : OutRecord) (s : State) : (emit rec s).cat = s.cat := rfl
@[simp] theorem emit_tStart (rec : OutRecord) (s : State) : (emit rec s).tStart = s.tStart := rfl
@[simp] theorem emit_sub (rec : OutRecord) (s : State) : (emit rec s).sub = s.sub := rfl
@[simp] theorem emit_pos (rec : OutRecord) (s : State) : (emit rec s).pos = s.pos := rfl
@[simp] theorem emit_acc (rec : OutRecord) (s : State) : (emit rec s).acc = s.acc := rfl
@[simp] theorem emit_hdrFlag (rec : OutRecord) (s : State) : (emit rec s).hdrFlag = s.hdrFlag := rfl
@[simp] theorem emit_hdrLabel (rec : OutRecord) (s : State) : (emit rec s).hdrLabel = s.hdrLabel := rfl
@[simp] theorem emit_out (rec : OutRecord) (s : State) : (emit rec s).out = some rec := rfl
@[simp] theorem emit_input (rec : OutRecord) (s : State) : (emit rec s).input = s.input := rfl

@[simp] theorem State.context_takeInput (s : State) : s.takeInput.context = s.context := rfl

@[simp] theorem State.context_noOutput (s : State) : (noOutput s).context = s.context := rfl

@[simp] theorem State.context_ctrl (s : State) : s.context.ctrl = s.ctrl := rfl
@[simp] theorem State.context_cat (s : State) : s.context.cat = s.cat := rfl
@[simp] theorem State.context_sub (s : State) : s.context.sub = s.sub := rfl
@[simp] theorem State.context_pos (s : State) : s.context.pos = s.pos := rfl

end Sys2Proof.Machine
end

