-- ==== Sys2Proof/Laws/Ops.lean ====
section
/-! SUPPORT. One lemma per shared operation that says once what it does. -/

namespace Sys2Proof.Machine

/-! ## The input ports -/

theorem State.ports_of_cons {s : State} {r : PortIn} {rest : List PortIn} (h : s.input = r :: rest) :
    s.ports = r := by simp [State.ports, h]

theorem State.ports_of_nil {s : State} (h : s.input = []) : s.ports = noRecord := by simp [State.ports, h]

/-! ## The end of a packet -/

/-- An error wins over completion, and either sets the byte's end time (R74). -/
theorem stopTime_eq (err : Option ErrorKind) (complete : Bool) (te : Time) :
    stopTime err complete te = if err.isSome || complete then some te else none := by
  cases err <;> cases complete <;> rfl

/-- A packet that goes on: `sub` is written and no record is driven. -/
theorem conclude_goOn (sub : SubDecoder) (te : Time) (s : State) :
    conclude sub te (goOn s) = { s with sub := sub, out := none } := rfl

/-- A packet that ends in an error, whichever sub-decoder raised it. -/
theorem conclude_raiseErr (sub : SubDecoder) (k : ErrorKind) (te : Time) (s : State) :
    conclude sub te (raiseErr k s) =
      { s with sub := sub, ctrl := .idle, out := some (errorRecord k.code te s) } := rfl

/-- A status packet that completes. -/
theorem conclude_completed_status (te : Time) (s : State) :
    conclude .status te (completed s) =
      { s with sub := .status, ctrl := .idle, out := some (statusRecord te s) } := rfl

/-- A data packet that completes. -/
theorem conclude_completed_data (te : Time) (s : State) :
    conclude .data te (completed s) = { s with sub := .data, ctrl := .idle, out := some (dataRecord te s) } := rfl

/-- Everything `conclude` can do: the packet goes on with no record, or it is closed with one. -/
theorem conclude_cases (sub : SubDecoder) (te : Time) (r : SubResult) :
    (r.err = none ∧ r.complete = false ∧ conclude sub te r = { r.regs with sub := sub, out := none }) ∨
      ((r.err.isSome = true ∨ r.complete = true) ∧
        conclude sub te r =
          { r.regs with
            sub := sub, ctrl := .idle,
            out := some (buildRecord (signalsOf r te) sub te { r.regs with sub := sub }) }) := by
  obtain ⟨regs, err, complete⟩ := r
  cases err with
  | some k => exact .inr ⟨.inl rfl, by cases complete <;> rfl⟩
  | none =>
    cases complete
    · exact .inl ⟨rfl, rfl, rfl⟩
    · exact .inr ⟨.inr rfl, rfl⟩

/-- `conclude` writes `sub`, `ctrl` and `out` alone. -/
theorem conclude_frame (sub : SubDecoder) (te : Time) (r : SubResult) :
    (conclude sub te r).params = r.regs.params ∧ (conclude sub te r).cat = r.regs.cat ∧
      (conclude sub te r).tStart = r.regs.tStart ∧ (conclude sub te r).pos = r.regs.pos ∧
      (conclude sub te r).acc = r.regs.acc ∧ (conclude sub te r).hdrFlag = r.regs.hdrFlag ∧
      (conclude sub te r).hdrLabel = r.regs.hdrLabel ∧ (conclude sub te r).input = r.regs.input ∧
      (conclude sub te r).sub = sub := by
  rcases conclude_cases sub te r with ⟨-, -, h⟩ | ⟨-, h⟩ <;> simp [h]

/-- A built record carries the packet's category and start time, and the stop time given (R76). -/
theorem buildRecord_span (g : Signals) (sub : SubDecoder) (t : Time) (s : State) :
    (buildRecord g sub t s).cat = s.cat ∧ (buildRecord g sub t s).ts = s.tStart ∧ (buildRecord g sub t s).te = t := by
  unfold buildRecord
  split
  · simp
  · split <;> simp

/-! ## Running a row -/

/-- A row runs exactly where it is selected; elsewhere it stops by name. -/
theorem runRow_of_selected {i : Instr} {s : State} (t : State) (h : selected s.params s.context i = true) :
    runRow i s t = .next t := by simp [runRow, h]

theorem runRow_eq_next {i : Instr} {s t u : State} (h : runRow i s t = .next u) :
    selected s.params s.context i = true ∧ u = t := by
  unfold runRow at h
  split at h
  · exact ⟨‹_›, by cases h; rfl⟩
  · cases h

/-! ## The rows' shared ends -/

theorem statusNibble_eq (n : BitVec 4) (te : Time) (s : State) :
    statusNibble n te s =
      { s with sub := .status, pos := s.pos + 1#4, acc := (s.acc <<< 4) ||| n.setWidth 32, out := none } := rfl

theorem dataNibble_eq (n : BitVec 4) (te : Time) (s : State) :
    dataNibble n te s =
      { s with sub := .data, pos := s.pos + 1#4, acc := (s.acc <<< 4) ||| n.setWidth 32, out := none } := rfl

theorem statusError_eq (k : ErrorKind) (te : Time) (s : State) :
    statusError k te s = finished .status (errorRecord k.code te s) s := rfl

theorem dataError_eq (k : ErrorKind) (te : Time) (s : State) :
    dataError k te s = finished .data (errorRecord k.code te s) s := rfl

theorem dataHeaderLabel_eq (flag : BitVec 3) (label : BitVec 4) (te : Time) (s : State) :
    dataHeaderLabel flag label te s =
      if labelDefined s.params s.cat label then
        { s with sub := .data, pos := s.pos + 1#4, hdrFlag := flag, hdrLabel := label, out := none }
      else finished .data (errorRecord 6 te s) s := rfl

/-! ## The sub-decoders -/

/-- What a sub-decoder leaves alone: it writes `pos`, `acc` and the header registers only (R73). -/
structure KeepsPacket (s t : State) : Prop where
  params : t.params = s.params
  ctrl : t.ctrl = s.ctrl
  cat : t.cat = s.cat
  tStart : t.tStart = s.tStart
  sub : t.sub = s.sub
  out : t.out = s.out
  input : t.input = s.input
  pos : t.pos = s.pos + 1#4

/-- The sub-decoder's frame, whatever the byte and the position. -/
theorem delegate_keepsPacket (sub : SubDecoder) (b : Byte) (s : State) :
    KeepsPacket s (delegate sub b s).regs := by
  cases sub
  all_goals
    simp only [delegate, statusFeed, dataFeed, statusHeader, statusPayload, statusTerm, statusOverrun, dataHeader,
      dataPayload, dataTerm, dataOverrun]
    repeat' split
    all_goals constructor <;> rfl

end Sys2Proof.Machine
end

