-- ==== Sys2Proof/Laws/PerInstr.lean ====
section
/-! SUPPORT. A family of facts about every row of the opcode table, one lemma per constructor: the byte the encoder gives
a well-formed row agrees with the row's match under its mask. -/

namespace Sys2Proof.Laws.TableMatch

/-- The encoder's byte for a well-formed row matches the table's row, whatever the configuration. -/
def Statement (i : Instr) : Prop :=
  wellFormed i = true → ∀ p : Params, ∀ b : Byte, encodeByte p i = some b →
    b &&& (tableRow p i).2 = (tableRow p i).1

theorem byteIn (b : Byte) (ts : Time) (te : Time) : Statement (.byteIn b ts te) := by intro _ p b' _; simp [tableRow]
theorem fs01 (ts : Time) : Statement (.fs01 ts) := by intro _ p b h; cases h; simp only [tableRow]; decide
theorem fs02 (ts : Time) : Statement (.fs02 ts) := by intro _ p b h; cases h; simp only [tableRow]; decide
theorem fs03 (ts : Time) : Statement (.fs03 ts) := by intro _ p b h; cases h; simp only [tableRow]; decide
theorem fs05 (ts : Time) : Statement (.fs05 ts) := by intro _ p b h; cases h; simp only [tableRow]; decide
theorem idleDrop (b : Byte) : Statement (.idleDrop b) := by intro _ p b' _; simp [tableRow]
theorem forward (b : Byte) (te : Time) : Statement (.forward b te) := by intro _ p b' _; simp [tableRow]
theorem hdrStatus (te : Time) : Statement (.hdrStatus te) := by intro _ p b h; cases h; simp only [tableRow, statusHdr]; generalize p.statusLabel = l; revert l; decide
theorem hdrNomarker (low : BitVec 7) (te : Time) : Statement (.hdrNomarker low te) := by intro _ p b h; cases h; simp only [tableRow]; clear * -; revert low; decide
theorem hdrDataF0 (label : BitVec 4) (te : Time) : Statement (.hdrDataF0 label te) := by intro _ p b h; cases h; simp only [tableRow]; clear * -; revert label; decide
theorem hdrDataF1 (label : BitVec 4) (te : Time) : Statement (.hdrDataF1 label te) := by intro _ p b h; cases h; simp only [tableRow]; clear * -; revert label; decide
theorem hdrDataF2 (label : BitVec 4) (te : Time) : Statement (.hdrDataF2 label te) := by intro _ p b h; cases h; simp only [tableRow]; clear * -; revert label; decide
theorem hdrDataF3 (label : BitVec 4) (te : Time) : Statement (.hdrDataF3 label te) := by intro _ p b h; cases h; simp only [tableRow]; clear * -; revert label; decide
theorem hdrDataF4 (label : BitVec 4) (te : Time) : Statement (.hdrDataF4 label te) := by intro _ p b h; cases h; simp only [tableRow]; clear * -; revert label; decide
theorem hdrDataF5 (label : BitVec 4) (te : Time) : Statement (.hdrDataF5 label te) := by intro _ p b h; cases h; simp only [tableRow]; clear * -; revert label; decide
theorem hdrBadflag (flag : BitVec 3) (label : BitVec 4) (te : Time) : Statement (.hdrBadflag flag label te) := by intro h p b e; cases e; simp only [tableRow]; simp only [wellFormed] at h; revert flag label; decide
theorem sHex0 (te : Time) : Statement (.sHex0 te) := by intro _ p b h; cases h; simp only [tableRow]; decide
theorem sHex1 (te : Time) : Statement (.sHex1 te) := by intro _ p b h; cases h; simp only [tableRow]; decide
theorem sHex2 (te : Time) : Statement (.sHex2 te) := by intro _ p b h; cases h; simp only [tableRow]; decide
theorem sHex3 (te : Time) : Statement (.sHex3 te) := by intro _ p b h; cases h; simp only [tableRow]; decide
theorem sHex4 (te : Time) : Statement (.sHex4 te) := by intro _ p b h; cases h; simp only [tableRow]; decide
theorem sHex5 (te : Time) : Statement (.sHex5 te) := by intro _ p b h; cases h; simp only [tableRow]; decide
theorem sHex6 (te : Time) : Statement (.sHex6 te) := by intro _ p b h; cases h; simp only [tableRow]; decide
theorem sHex7 (te : Time) : Statement (.sHex7 te) := by intro _ p b h; cases h; simp only [tableRow]; decide
theorem sHex8 (te : Time) : Statement (.sHex8 te) := by intro _ p b h; cases h; simp only [tableRow]; decide
theorem sHex9 (te : Time) : Statement (.sHex9 te) := by intro _ p b h; cases h; simp only [tableRow]; decide
theorem sHexA (te : Time) : Statement (.sHexA te) := by intro _ p b h; cases h; simp only [tableRow]; decide
theorem sHexB (te : Time) : Statement (.sHexB te) := by intro _ p b h; cases h; simp only [tableRow]; decide
theorem sHexC (te : Time) : Statement (.sHexC te) := by intro _ p b h; cases h; simp only [tableRow]; decide
theorem sHexD (te : Time) : Statement (.sHexD te) := by intro _ p b h; cases h; simp only [tableRow]; decide
theorem sHexE (te : Time) : Statement (.sHexE te) := by intro _ p b h; cases h; simp only [tableRow]; decide
theorem sHexF (te : Time) : Statement (.sHexF te) := by intro _ p b h; cases h; simp only [tableRow]; decide
theorem sPayloadNonhex (b : Byte) (te : Time) : Statement (.sPayloadNonhex b te) := by intro _ p b' _; simp [tableRow]
theorem sTermCr (te : Time) : Statement (.sTermCr te) := by intro _ p b h; cases h; simp only [tableRow]; decide
theorem sTermOther (b : Byte) (te : Time) : Statement (.sTermOther b te) := by intro _ p b' _; simp [tableRow]
theorem sOverrun (b : Byte) (te : Time) : Statement (.sOverrun b te) := by intro _ p b' _; simp [tableRow]
theorem dHex0 (te : Time) : Statement (.dHex0 te) := by intro _ p b h; cases h; simp only [tableRow]; decide
theorem dHex1 (te : Time) : Statement (.dHex1 te) := by intro _ p b h; cases h; simp only [tableRow]; decide
theorem dHex2 (te : Time) : Statement (.dHex2 te) := by intro _ p b h; cases h; simp only [tableRow]; decide
theorem dHex3 (te : Time) : Statement (.dHex3 te) := by intro _ p b h; cases h; simp only [tableRow]; decide
theorem dHex4 (te : Time) : Statement (.dHex4 te) := by intro _ p b h; cases h; simp only [tableRow]; decide
theorem dHex5 (te : Time) : Statement (.dHex5 te) := by intro _ p b h; cases h; simp only [tableRow]; decide
theorem dHex6 (te : Time) : Statement (.dHex6 te) := by intro _ p b h; cases h; simp only [tableRow]; decide
theorem dHex7 (te : Time) : Statement (.dHex7 te) := by intro _ p b h; cases h; simp only [tableRow]; decide
theorem dHex8 (te : Time) : Statement (.dHex8 te) := by intro _ p b h; cases h; simp only [tableRow]; decide
theorem dHex9 (te : Time) : Statement (.dHex9 te) := by intro _ p b h; cases h; simp only [tableRow]; decide
theorem dHexA (te : Time) : Statement (.dHexA te) := by intro _ p b h; cases h; simp only [tableRow]; decide
theorem dHexB (te : Time) : Statement (.dHexB te) := by intro _ p b h; cases h; simp only [tableRow]; decide
theorem dHexC (te : Time) : Statement (.dHexC te) := by intro _ p b h; cases h; simp only [tableRow]; decide
theorem dHexD (te : Time) : Statement (.dHexD te) := by intro _ p b h; cases h; simp only [tableRow]; decide
theorem dHexE (te : Time) : Statement (.dHexE te) := by intro _ p b h; cases h; simp only [tableRow]; decide
theorem dHexF (te : Time) : Statement (.dHexF te) := by intro _ p b h; cases h; simp only [tableRow]; decide
theorem dPayloadNonhex (b : Byte) (te : Time) : Statement (.dPayloadNonhex b te) := by intro _ p b' _; simp [tableRow]
theorem dTermCr (te : Time) : Statement (.dTermCr te) := by intro _ p b h; cases h; simp only [tableRow]; decide
theorem dTermOther (b : Byte) (te : Time) : Statement (.dTermOther b te) := by intro _ p b' _; simp [tableRow]
theorem dOverrun (b : Byte) (te : Time) : Statement (.dOverrun b te) := by intro _ p b' _; simp [tableRow]
theorem noInput : Statement (.noInput) := by intro _ p b h; cases h
theorem reset : Statement (.reset) := by intro _ p b h; cases h

end Sys2Proof.Laws.TableMatch
end

