-- ==== Sys2Proof/Laws/Rows.lean ====
section
/-! SUPPORT. The rows the decoder makes from a number (a hex digit, a flag code), read as one row with the number as a
parameter: when it is selected, its byte, and what `exec` does with it. -/

namespace Sys2Proof.Machine

/-- S_HEX_n, for the nibble n. -/
theorem exec_statusHexRow (n : BitVec 4) (te : Time) (s : State) :
    exec (statusHexRow n te) s =
      if s.context.atStatusPayload then .next (statusNibble n te s) else .fault .rowNotSelected := by
  have h : ∀ m : Fin 16, exec (statusHexRow (BitVec.ofFin m) te) s =
      if s.context.atStatusPayload then .next (statusNibble (BitVec.ofFin m) te s) else .fault .rowNotSelected := by
    intro m; fin_cases m <;> rfl
  exact h n.toFin

/-- D_HEX_n, for the nibble n. -/
theorem exec_dataHexRow (n : BitVec 4) (te : Time) (s : State) :
    exec (dataHexRow n te) s =
      if s.context.atDataPayload then .next (dataNibble n te s) else .fault .rowNotSelected := by
  have h : ∀ m : Fin 16, exec (dataHexRow (BitVec.ofFin m) te) s =
      if s.context.atDataPayload then .next (dataNibble (BitVec.ofFin m) te s) else .fault .rowNotSelected := by
    intro m; fin_cases m <;> rfl
  exact h n.toFin

/-- HDR_DATA_Ff, for a legal flag code f. -/
theorem exec_dataHeaderRow {f : BitVec 3} (hf : f ≤ 5#3) (l : BitVec 4) (te : Time) (s : State) :
    exec (dataHeaderRow f l te) s =
      if s.context.atDataHeader s.params f l then .next (dataHeaderLabel f l te s) else .fault .rowNotSelected := by
  have h : ∀ m : Fin 8, BitVec.ofFin m ≤ 5#3 → exec (dataHeaderRow (BitVec.ofFin m) l te) s =
      if s.context.atDataHeader s.params (BitVec.ofFin m) l then .next (dataHeaderLabel (BitVec.ofFin m) l te s)
      else .fault .rowNotSelected := by
    intro m; fin_cases m
    all_goals first | (intro _; rfl) | (intro h; exact absurd h (by decide))
  exact h f.toFin hf

/-- When S_HEX_n is selected, and its byte. -/
theorem selected_statusHexRow (p : Params) (c : Context) (n : BitVec 4) (te : Time) :
    selected p c (statusHexRow n te) = c.atStatusPayload ∧ encodeByte p (statusHexRow n te) = some (hexChar n) := by
  have h : ∀ m : Fin 16, selected p c (statusHexRow (BitVec.ofFin m) te) = c.atStatusPayload ∧
      encodeByte p (statusHexRow (BitVec.ofFin m) te) = some (hexChar (BitVec.ofFin m)) := by
    intro m; fin_cases m <;> exact ⟨rfl, rfl⟩
  exact h n.toFin

/-- When D_HEX_n is selected, and its byte. -/
theorem selected_dataHexRow (p : Params) (c : Context) (n : BitVec 4) (te : Time) :
    selected p c (dataHexRow n te) = c.atDataPayload ∧ encodeByte p (dataHexRow n te) = some (hexChar n) := by
  have h : ∀ m : Fin 16, selected p c (dataHexRow (BitVec.ofFin m) te) = c.atDataPayload ∧
      encodeByte p (dataHexRow (BitVec.ofFin m) te) = some (hexChar (BitVec.ofFin m)) := by
    intro m; fin_cases m <;> exact ⟨rfl, rfl⟩
  exact h n.toFin

/-- When HDR_DATA_Ff is selected, and its byte. -/
theorem selected_dataHeaderRow (p : Params) (c : Context) {f : BitVec 3} (hf : f ≤ 5#3) (l : BitVec 4) (te : Time) :
    selected p c (dataHeaderRow f l te) = c.atDataHeader p f l ∧
      encodeByte p (dataHeaderRow f l te) = some (headerByte f l) := by
  have h : ∀ m : Fin 8, BitVec.ofFin m ≤ 5#3 →
      selected p c (dataHeaderRow (BitVec.ofFin m) l te) = c.atDataHeader p (BitVec.ofFin m) l ∧
        encodeByte p (dataHeaderRow (BitVec.ofFin m) l te) = some (headerByte (BitVec.ofFin m) l) := by
    intro m; fin_cases m
    all_goals first | (intro _; exact ⟨rfl, rfl⟩) | (intro h; exact absurd h (by decide))
  exact h f.toFin hf

/-- A byte of CATS is one of the four (R8). -/
theorem isCat_eq_true {b : Byte} : isCat b = true ↔ b = 0x01 ∨ b = 0x02 ∨ b = 0x03 ∨ b = 0x05 := by
  revert b; decide

/-- The row of a frame-start byte opens a packet with that byte. -/
theorem exec_frameStartRow {b : Byte} (h : isCat b = true) (ts : Time) (s : State) :
    exec (frameStartRow b ts) s = .next (openPacket b ts s) := by
  rcases isCat_eq_true.1 h with h | h | h | h <;> subst h <;> rfl

/-- Shifting a nibble into an accumulator that holds `p` nibbles, p < 8, loses no bit: it reads in base 16 (R89). -/
theorem shiftNibble_toNat {a : Word} {p : Nat} (n : BitVec 4) (hp : p < 8) (h : a.toNat < 16 ^ p) :
    ((a <<< 4) ||| n.setWidth 32).toNat = a.toNat * 16 + n.toNat := by
  have hb : a.toNat < 16 ^ 7 := lt_of_lt_of_le h (Nat.pow_le_pow_right (by norm_num) (by omega))
  have disjoint : (a <<< 4) ||| n.setWidth 32 = (a <<< 4) + n.setWidth 32 := by
    rw [← BitVec.add_eq_or_of_and_eq_zero]
    ext i hi
    have : i < 4 ∨ n.getLsbD i = false := by
      by_cases hh : i < 4
      · exact .inl hh
      · exact .inr (BitVec.getLsbD_of_ge _ _ (not_lt.1 hh))
    rcases this with h | h <;> simp [h]
  have hn := n.isLt
  rw [disjoint]
  simp [BitVec.toNat_add, BitVec.toNat_shiftLeft, Nat.shiftLeft_eq]
  omega

end Sys2Proof.Machine
end

