-- ==== Sys2Proof/Tests/Slice0.lean ====
section
/-! SUPPORT. The model's own tests: the WellFormed smoke test, a word for every row of the opcode table, the spec's
vectors (95_test_vectors.md), and for each statement with hypotheses a witness that meets them. -/

namespace Sys2Proof.Tests

open Sys2Proof Sys2Proof.Machine

/-! ## WellFormed refuses each ill-formed operand -/

theorem test_wf_idleDrop : wellFormed (.idleDrop 0x01) = false := by decide
theorem test_wf_forward : wellFormed (.forward 0x05 0) = false := by decide
theorem test_wf_hdrNomarker : wellFormed (.hdrNomarker 0x02 0) = false := by decide
theorem test_wf_hdrBadflag : wellFormed (.hdrBadflag 5 0x1 0) = false := by decide
theorem test_wf_sPayloadNonhex : wellFormed (.sPayloadNonhex 0x41 0) = false := by decide
theorem test_wf_sPayloadNonhex_cat : wellFormed (.sPayloadNonhex 0x03 0) = false := by decide
theorem test_wf_sTermOther : wellFormed (.sTermOther 0x0D 0) = false := by decide
theorem test_wf_sTermOther_cat : wellFormed (.sTermOther 0x05 0) = false := by decide
theorem test_wf_sOverrun : wellFormed (.sOverrun 0x01 0) = false := by decide
theorem test_wf_dPayloadNonhex : wellFormed (.dPayloadNonhex 0x39 0) = false := by decide
theorem test_wf_dPayloadNonhex_cat : wellFormed (.dPayloadNonhex 0x01 0) = false := by decide
theorem test_wf_dTermOther : wellFormed (.dTermOther 0x0D 0) = false := by decide
theorem test_wf_dTermOther_cat : wellFormed (.dTermOther 0x02 0) = false := by decide
theorem test_wf_dOverrun : wellFormed (.dOverrun 0x02 0) = false := by decide

/-! ## Test configuration E (95_test_vectors.md) and small states -/

/-- Labels 1 and 2 are defined. -/
def tableE : LabelTable :=
  #v[none, some "L1", some "L2", none, none, none, none, none, none, none, none, none, none, none, none, none]

/-- STATUS_SOH = 0x01, STATUS_LABEL = 0x0F, the same labels under every category. -/
def paramsE : Params := ⟨0x01, 0x0F, ⟨tableE, tableE, tableE, tableE⟩⟩

/-- Idle under configuration E. -/
def idleE : State := { State.reset with params := paramsE }

/-- A fresh packet of category `c`, opened at time 10. -/
def freshE (c : Byte) : State := openPacket c 10 idleE

/-- An open status packet under category 1. -/
def statusE (pos : BitVec 4) (acc : Word) : State := { freshE 0x01 with sub := .status, pos := pos, acc := acc }

/-- An open data packet under category 2, flag 1 and label 1. -/
def dataE (pos : BitVec 4) (acc : Word) : State :=
  { freshE 0x02 with sub := .data, pos := pos, acc := acc, hdrFlag := 1, hdrLabel := 1 }

/-- A byte with times (50, 59). -/
def rec59 (b : Byte) : PortIn := byteRecord b 50 59

/-- The next state, where there is one. -/
def nextOf : Host.Outcome State Fault Refusal → Option State
  | .next t => some t
  | .fault _ => none
  | .refused _ => none

/-- The sequencing registers after a step, with the byte `b` presented. -/
def seqAfter (s : State) (b : Byte) : Option (Ctrl × SubDecoder × BitVec 4) :=
  (nextOf (step { s with input := [rec59 b] })).map fun t => (t.ctrl, t.sub, t.pos)

/-- Kind, error code and value of the record a step drives, with the byte `b` presented. -/
def recordAfter (s : State) (b : Byte) : Option (BitVec 2 × BitVec 3 × Word) :=
  ((nextOf (step { s with input := [rec59 b] })).bind fun t => t.out).map fun r => (r.kind, r.err, r.value)

/-! ## Words written out from the encoding tables: every row (R53 to R59) -/

/-- The row a presented byte reads as, under configuration E. -/
def readAs (c : Context) (b : Byte) : Instr := decode paramsE c (byteRecord b 7 8)

theorem test_decode_ports :
    decodePort ⟨true, true, 0x01, 7, 8⟩ = .reset ∧ decodePort ⟨false, false, 0x01, 7, 8⟩ = .noInput ∧
      decodePort ⟨false, true, 0x01, 7, 8⟩ = .byteIn 0x01 7 8 := by decide

theorem test_decode_frameStart :
    [0b00000001, 0b00000010, 0b00000011, 0b00000101].map (readAs ⟨.opened, 0x02, .data, 4⟩) =
      [.fs01 7, .fs02 7, .fs03 7, .fs05 7] := by decide

theorem test_decode_idle :
    readAs ⟨.idle, 0x00, .none, 0⟩ 0x33 = .idleDrop 0x33 ∧ readAs ⟨.idle, 0x00, .none, 0⟩ 0x04 = .idleDrop 0x04 ∧
      decodeStream ⟨.opened, 0x02, .data, 4⟩ 0x33 7 8 = .forward 0x33 8 := by decide

theorem test_decode_header_status :
    readAs ⟨.opened, 0x01, .none, 0⟩ 0x8F = .hdrStatus 8 ∧ readAs ⟨.opened, 0x02, .none, 0⟩ 0x8F = .hdrDataF0 0xF 8 ∧
      readAs ⟨.opened, 0x01, .none, 0⟩ 0x0F = .hdrNomarker 0x0F 8 := by decide

theorem test_decode_header_data :
    [0b10000001, 0b10010001, 0b10100001, 0b10110001, 0b11000001, 0b11010010, 0b11100011, 0b11110010, 0b01111111].map
      (readAs ⟨.opened, 0x02, .none, 0⟩) =
      [.hdrDataF0 1 8, .hdrDataF1 1 8, .hdrDataF2 1 8, .hdrDataF3 1 8, .hdrDataF4 1 8, .hdrDataF5 2 8,
        .hdrBadflag 6 3 8, .hdrBadflag 7 2 8, .hdrNomarker 0x7F 8] := by decide

theorem test_decode_status_digits :
    [0x30, 0x31, 0x32, 0x33, 0x34, 0x35, 0x36, 0x37, 0x38, 0x39].map (readAs ⟨.opened, 0x01, .status, 1⟩) =
      [.sHex0 8, .sHex1 8, .sHex2 8, .sHex3 8, .sHex4 8, .sHex5 8, .sHex6 8, .sHex7 8, .sHex8 8, .sHex9 8] := by decide

theorem test_decode_status_letters :
    [0x41, 0x42, 0x43, 0x44, 0x45, 0x46].map (readAs ⟨.opened, 0x01, .status, 4⟩) =
      [.sHexA 8, .sHexB 8, .sHexC 8, .sHexD 8, .sHexE 8, .sHexF 8] := by decide

theorem test_decode_status_nonhex :
    [0x2F, 0x3A, 0x40, 0x47, 0x61, 0x0D].map (readAs ⟨.opened, 0x01, .status, 4⟩) =
      [.sPayloadNonhex 0x2F 8, .sPayloadNonhex 0x3A 8, .sPayloadNonhex 0x40 8, .sPayloadNonhex 0x47 8,
        .sPayloadNonhex 0x61 8, .sPayloadNonhex 0x0D 8] := by decide

theorem test_decode_status_end :
    readAs ⟨.opened, 0x01, .status, 5⟩ 0x0D = .sTermCr 8 ∧ readAs ⟨.opened, 0x01, .status, 5⟩ 0x35 = .sTermOther 0x35 8 ∧
      readAs ⟨.opened, 0x01, .status, 6⟩ 0x0D = .sOverrun 0x0D 8 ∧
      readAs ⟨.opened, 0x01, .status, 15⟩ 0x0D = .sOverrun 0x0D 8 := by decide

theorem test_decode_data_digits :
    [0x30, 0x31, 0x32, 0x33, 0x34, 0x35, 0x36, 0x37, 0x38, 0x39].map (readAs ⟨.opened, 0x02, .data, 1⟩) =
      [.dHex0 8, .dHex1 8, .dHex2 8, .dHex3 8, .dHex4 8, .dHex5 8, .dHex6 8, .dHex7 8, .dHex8 8, .dHex9 8] := by decide

theorem test_decode_data_letters :
    [0x41, 0x42, 0x43, 0x44, 0x45, 0x46].map (readAs ⟨.opened, 0x02, .data, 8⟩) =
      [.dHexA 8, .dHexB 8, .dHexC 8, .dHexD 8, .dHexE 8, .dHexF 8] := by decide

theorem test_decode_data_end :
    readAs ⟨.opened, 0x02, .data, 8⟩ 0x66 = .dPayloadNonhex 0x66 8 ∧ readAs ⟨.opened, 0x02, .data, 9⟩ 0x0D = .dTermCr 8 ∧
      readAs ⟨.opened, 0x02, .data, 9⟩ 0x30 = .dTermOther 0x30 8 ∧
      readAs ⟨.opened, 0x02, .data, 10⟩ 0x30 = .dOverrun 0x30 8 := by decide

theorem test_tableWord :
    decodeTableWord 8 0x05 = some (.fs05 0) ∧ decodeTableWord 8 0xA3 = some (.hdrDataF2 3 0) ∧
      decodeTableWord 8 0x41 = some (.sHexA 0) ∧ decodeTableWord 16 0x41 = none := by decide

/-! ## The spec's vectors, Stream Controller and Frame Dispatcher (SC, FD) -/

theorem test_SC1_SC2_SC3 :
    [0x33, 0x0D, 0x04].map (fun b => (seqAfter idleE b, recordAfter idleE b)) =
      [(some (.idle, .none, 0), none), (some (.idle, .none, 0), none), (some (.idle, .none, 0), none)] := by decide

theorem test_SC4 :
    (nextOf (step { idleE with input := [byteRecord 0x05 7 8] })).map (fun t => (t.ctrl, t.cat, t.tStart, t.pos, t.acc)) =
      some (.opened, 0x05, 7, 0, 0) := by decide

theorem test_SC5 :
    (nextOf (step { dataE 9 0x3F800000 with input := [rec59 0x01] })).map (fun t => (t.cat, t.sub, t.pos, t.acc, t.out)) =
      some (0x01, .none, 0, 0, none) := by decide

theorem test_SC6 : (nextOf (step { freshE 0x02 with input := [rec59 0x03] })).map (fun t => (t.cat, t.out)) =
    some (0x03, none) := by decide

theorem test_SC7 :
    (nextOf (step { statusE 3 0x12 with input := [⟨false, false, 0x0D, 7, 8⟩] })).map
      (fun t => (t.ctrl, t.sub, t.pos, t.acc, t.out)) = some (.opened, .status, 3, 0x12, none) := by decide

theorem test_SC8 :
    (nextOf (step { dataE 4 0x123 with input := [⟨true, true, 0x0D, 7, 8⟩] })).map
      (fun t => (t.ctrl, t.cat, t.sub, t.pos, t.acc)) = some (.idle, 0, .none, 0, 0) ∧
    (nextOf (step { dataE 4 0x123 with input := [⟨true, true, 0x0D, 7, 8⟩] })).map
      (fun t => (t.tStart, t.hdrFlag, t.hdrLabel, t.out)) = some (0, 0, 0, none) := ⟨by decide, by decide⟩

theorem test_SC9 :
    (nextOf (step { idleE with input := [⟨true, true, 0x01, 7, 8⟩] })).map (fun t => t.ctrl) = some .idle := by decide

theorem test_FD1_FD4 :
    [0x8F, 0x81].map (fun b => (seqAfter (freshE 0x01) b, recordAfter (freshE 0x01) b)) =
      [(some (.opened, .status, 1), none), (some (.opened, .data, 1), none)] := by decide

theorem test_FD2_FD3 :
    (recordAfter (freshE 0x02) 0x8F, recordAfter (freshE 0x01) 0x0F) = (some (0, 6, 0), some (0, 5, 0)) := by decide

theorem test_FD5 :
    (nextOf (step { freshE 0x05 with input := [rec59 0xD2] })).map (fun t => (t.pos, t.hdrFlag, t.hdrLabel)) =
      some (1, 5, 2) := by decide

/-! ## Status and data decoder (SS, DS) -/

theorem test_SS_terminator :
    (recordAfter (statusE 5 0x002A) 0x0D, recordAfter (statusE 5 0x1234) 0x35, recordAfter (statusE 5 0x1234) 0x0A,
      recordAfter (statusE 5 0xFFFF) 0x0D) =
      (some (1, 0, 42), some (0, 2, 0), some (0, 2, 0), some (1, 0, 65535)) := by decide

theorem test_SS_payload_errors :
    [0x61, 0x47, 0x2F, 0x3A, 0x40, 0x0D].map (recordAfter (statusE 3 0x12)) =
      [some (0, 1, 0), some (0, 1, 0), some (0, 1, 0), some (0, 1, 0), some (0, 1, 0), some (0, 1, 0)] := by decide

theorem test_SS_payload_nibble :
    (nextOf (step { statusE 3 0x02 with input := [rec59 0x41] })).map (fun t => (t.pos, t.acc)) =
      some (4, 0x2A) := by decide

theorem test_SS16 : recordAfter (statusE 5 0x1234) 0x05 = none ∧
    seqAfter (statusE 5 0x1234) 0x05 = some (.opened, .none, 0) := by decide

theorem test_DS_header_errors :
    [0x00, 0x11, 0x0D, 0x7F, 0x61].map (recordAfter (freshE 0x02)) =
        [some (0, 5, 0), some (0, 5, 0), some (0, 5, 0), some (0, 5, 0), some (0, 5, 0)] ∧
      [0x80, 0xE1, 0xF2, 0xE3, 0x83].map (recordAfter (freshE 0x02)) =
        [some (0, 6, 0), some (0, 6, 0), some (0, 6, 0), some (0, 6, 0), some (0, 6, 0)] := by decide

theorem test_DS_terminator :
    (recordAfter (dataE 9 0x3F800000) 0x0D, recordAfter (dataE 9 0xC1480000) 0x0D, recordAfter (dataE 9 0x3F800000) 0x30) =
      (some (2, 0, 0x3F800000), some (2, 0, 0xC1480000), some (0, 2, 0)) := by decide

theorem test_DS_payload :
    (recordAfter (dataE 8 0x3F80000) 0x0D, recordAfter (dataE 2 0x3) 0x66, seqAfter (dataE 4 0x3F8) 0x30) =
      (some (0, 1, 0), some (0, 1, 0), some (.opened, .data, 5)) := by decide

/-- The record of R76's example, with the spans of EX1: start time 10, stop time 59. -/
theorem test_data_record :
    ((nextOf (step { dataE 9 0x7FC00001 with input := [rec59 0x0D] })).bind fun t => t.out) =
      some ⟨2, 0, 0x02, 1, 1, 0x7FC00001, 4, 10, 59⟩ := by decide

theorem test_overrun :
    (recordAfter (statusE 15 0) 0x0D, recordAfter (dataE 10 0) 0x30) = (some (0, 2, 0), some (0, 2, 0)) := by decide

/-- BYTE_IN and FORWARD have the same effect as the row they narrow to. -/
theorem test_umbrella_rows :
    (nextOf (exec (.byteIn 0x41 50 59) (statusE 3 0x02))).map (fun t => (t.pos, t.acc)) = some (4, 0x2A) ∧
      (nextOf (exec (.forward 0x91 59) (freshE 0x02))).map (fun t => (t.pos, t.hdrFlag, t.hdrLabel)) =
        some (1, 1, 1) := by decide

/-- A row asked for outside its context is stopped by name. -/
theorem test_row_outside_context :
    exec (.sHex3 59) idleE = .fault .rowNotSelected ∧ exec (.dHex3 59) (statusE 3 0) = .fault .rowNotSelected :=
  ⟨rfl, rfl⟩

/-! ## Value interpretation (FI) -/

theorem test_FI_classes :
    [0x00000000, 0x80000000, 0x00000001, 0x007FFFFF, 0x0000803F, 0x00800000, 0x3F800000, 0x7F7FFFFF, 0x7F800000,
        0xFF800000, 0x7FC00000, 0xFFC00001, 0x7F800001, 0x7FBFFFFF].map (fun w => (fclass w).code) =
      [0, 0, 1, 1, 1, 2, 2, 2, 3, 3, 4, 4, 5, 5] := by decide

/-- FI1, FI2, FI14 and FI17. -/
theorem test_FI_special :
    floatValue 0x00000000 = .zero false ∧ floatValue 0x80000000 = .zero true ∧ floatValue 0x7F800000 = .infinity false ∧
      floatValue 0xFFC00001 = .nan true 0x400001 := ⟨rfl, rfl, rfl, rfl⟩

/-- FI11: 0xC1480000 is −12.5. -/
theorem test_FI11 : floatValue 0xC1480000 = .finite (-25 / 2) := by
  have hc : fclass 0xC1480000 = .normal := by decide
  have hs : signBit 0xC1480000 = true := by decide
  have he : exponentField 0xC1480000 = 130#8 := by decide
  have hf : fractionField 0xC1480000 = 0x480000#23 := by decide
  simp only [floatValue, hc, hs, he, hf, signFactor]
  norm_num

/-- FI5: the source's example word is a subnormal (90_conflicts.md C2). -/
theorem test_FI5 : floatValue 0x0000803F = .finite (32831 * (2 : Rat) ^ (-149 : Int)) := by
  have hc : fclass 0x0000803F = .subnormal := by decide
  have hs : signBit 0x0000803F = false := by decide
  have hf : fractionField 0x0000803F = 0x00803F#23 := by decide
  simp only [floatValue, hc, hs, hf, signFactor]
  norm_num

/-! ## The fetch interface -/

theorem test_withFetchWord_from_reset :
    (nextOf (step (State.reset.withFetchWord 8 0x42))).map (fun t => (t.pos, t.acc)) = some (2, 0xB) ∧
      (nextOf (step (State.reset.withFetchWord 8 0x03))).map (fun t => (t.ctrl, t.cat)) = some (.opened, 0x03) := by decide

/-! ## Witnesses: for each statement with hypotheses, a state and operands that meet them -/

/-- ResetRowRestoresEveryRegister, NoInputWritesNoRegister: a reset step, a gap, and the end of the input. -/
theorem witness_ports :
    (∃ r rest, ({ dataE 4 0x123 with input := [⟨true, true, 0x01, 7, 8⟩] } : State).input = r :: rest ∧ r.rst = true) ∧
    (∃ r rest, ({ dataE 4 0x123 with input := [noRecord] } : State).input = r :: rest ∧ r.rst = false ∧
      r.inValid = false) ∧ idleE.input = [] := by
  exact ⟨⟨_, _, rfl, rfl⟩, ⟨_, _, rfl, rfl, rfl⟩, rfl⟩

/-- FrameStartOpensANewPacket: the last row, in the middle of a data packet. -/
theorem witness_frameStart :
    ((.fs05, 0x05#8) : (Time → Instr) × Byte) ∈ frameStartRows ∧
      ({ dataE 9 0x3F800000 with input := [byteRecord 0x05 50 59] } : State).input = byteRecord 0x05 50 59 :: [] := by
  exact ⟨by simp [frameStartRows], rfl⟩

/-- IdleByteIsDropped: 0x04 and 0x06 stand beside the category codes. -/
theorem witness_idle :
    idleE.ctrl = .idle ∧ isCat 0x04 = false ∧ isCat 0x06 = false ∧ isCat 0x00 = false ∧
      ({ idleE with input := [rec59 0x04] } : State).input = byteRecord 0x04 50 59 :: [] := by decide

/-- ByteInTakesOneOfThreePaths, one witness for each clause. -/
theorem witness_byteIn :
    isCat 0x05 = true ∧ (isCat 0x04 = false ∧ idleE.ctrl = .idle) ∧ (isCat 0x04 = false ∧ (dataE 4 0).ctrl = .opened) := by
  decide

/-- ForwardFeedsTheOpenPacket, PacketRowsAgreeWithForward: a fresh packet and both kinds of running packet. -/
theorem witness_forward :
    (∃ sub r, (freshE 0x01).ctrl = .opened ∧ isCat 0x8F = false ∧
      sub = (if (freshE 0x01).sub = .none then
        (if recognize (freshE 0x01).params (freshE 0x01).cat 0x8F then .status else .data) else (freshE 0x01).sub) ∧
      r = (if sub = .status then statusFeed 0x8F (freshE 0x01) else dataFeed 0x8F (freshE 0x01))) ∧
    ((freshE 0x01).sub = .none → (freshE 0x01).pos = 0#4) ∧
    ((dataE 9 0).ctrl = .opened ∧ ((dataE 9 0).sub = .none → (dataE 9 0).pos = 0#4)) := by
  exact ⟨⟨_, _, rfl, rfl, rfl, rfl⟩, by decide, by decide⟩

/-- StepIsTheTopLevelPseudocode, StepKeepsTheInvariants, EveryRecordIsLegal: a state that meets the invariants with a
packet open, whose step emits. -/
theorem witness_invariants :
    ({ dataE 9 0x3F800000 with input := [rec59 0x0D] } : State).Inv ∧
      ∃ t r, step { dataE 9 0x3F800000 with input := [rec59 0x0D] } = .next t ∧ t.out = some r := by
  exact ⟨by decide, _, _, rfl, rfl⟩

/-- The invariants also hold at the ends of their ranges: a fresh packet, and status packets at positions 1 and 5. -/
theorem witness_invariants_bounds :
    (freshE 0x01).Inv ∧ (statusE 1 0).Inv ∧ (statusE 5 0xFFFF).Inv ∧ (dataE 1 0).Inv ∧ ¬ (statusE 6 0).Inv ∧
      ¬ (statusE 4 0x1000).Inv ∧ ¬ (dataE 10 0).Inv :=
  ⟨by decide, by decide, by decide, by decide, by decide, by decide, by decide⟩

/-- StatusSignatureSelectsTheStatusDecoder. -/
theorem witness_hdrStatus :
    (freshE 0x01).ctrl = .opened ∧ (freshE 0x01).sub = .none ∧ (freshE 0x01).pos = 0#4 ∧
      (freshE 0x01).cat = (freshE 0x01).params.statusSoh := by decide

/-- StatusPayloadRowsShiftOrReject, at both ends of the range of positions, with a byte on each side of the alphabet. -/
theorem witness_statusPayload :
    (∀ pos ∈ [1#4, 4#4], (statusE pos 0).ctrl = .opened ∧ (statusE pos 0).sub = .status ∧ 1#4 ≤ (statusE pos 0).pos ∧
      (statusE pos 0).pos ≤ 4#4) ∧
    (isHex 0x2F = false ∧ isCat 0x2F = false) ∧ (isHex 0x47 = false ∧ isCat 0x47 = false) ∧
      statusHexRows.length = 16 := by decide

/-- StatusTerminatorRowsCompleteOrReject, StatusOverrunRaisesWrongFrameLength at both ends. -/
theorem witness_statusEnd :
    ((statusE 5 0x2A).ctrl = .opened ∧ (statusE 5 0x2A).sub = .status ∧ (statusE 5 0x2A).pos = 5#4 ∧
      (0x35 : Byte) ≠ 0x0D#8 ∧ isCat 0x35 = false) ∧
    ((statusE 6 0).ctrl = .opened ∧ (statusE 6 0).sub = .status ∧ 6#4 ≤ (statusE 6 0).pos) ∧
      6#4 ≤ (statusE 15 0).pos := by decide

/-- DataHeaderRowsAcceptOrReject, DataHeaderByteIsCheckedAndRecorded: each clause, with flag codes 5 and 6. -/
theorem witness_dataHeader :
    ((freshE 0x02).ctrl = .opened ∧ (freshE 0x02).sub = .none ∧ (freshE 0x02).pos = 0#4) ∧
    isCat ((0x7F : BitVec 7).setWidth 8) = false ∧
    recognize (freshE 0x02).params (freshE 0x02).cat (headerByte 5 2) = false ∧
    labelDefined (freshE 0x02).params (freshE 0x02).cat 2 = true ∧
    labelDefined (freshE 0x02).params (freshE 0x02).cat 3 = false ∧
    (5#3 < 6#3 ∧ recognize (freshE 0x02).params (freshE 0x02).cat (headerByte 6 2) = false) ∧
    (isCat 0x91 = false ∧ recognize (freshE 0x02).params (freshE 0x02).cat 0x91 = false) ∧
    ({ freshE 0x02 with input := [rec59 0x91] } : State).input = byteRecord 0x91 50 59 :: [] := by decide

/-- DataPayloadRowsShiftOrReject, at both ends. -/
theorem witness_dataPayload :
    (∀ pos ∈ [1#4, 8#4], (dataE pos 0).ctrl = .opened ∧ (dataE pos 0).sub = .data ∧ 1#4 ≤ (dataE pos 0).pos ∧
      (dataE pos 0).pos ≤ 8#4) ∧ dataHexRows.length = 16 ∧ dataHeaderRows.length = 6 := by decide

/-- DataTerminatorRowsCompleteOrReject, DataOverrunRaisesWrongFrameLength at both ends. -/
theorem witness_dataEnd :
    ((dataE 9 0).ctrl = .opened ∧ (dataE 9 0).sub = .data ∧ (dataE 9 0).pos = 9#4) ∧
    ((dataE 10 0).ctrl = .opened ∧ (dataE 10 0).sub = .data ∧ 10#4 ≤ (dataE 10 0).pos) ∧ 10#4 ≤ (dataE 15 0).pos := by
  decide

/-- NonHexPayloadByteEndsThePacket: the four ends of its two ranges. -/
theorem witness_nonHex :
    ∀ s ∈ [statusE 1 0, statusE 4 0, dataE 1 0, dataE 8 0],
      s.ctrl = .opened ∧
        ((s.sub = .status ∧ 1#4 ≤ s.pos ∧ s.pos ≤ 4#4) ∨ (s.sub = .data ∧ 1#4 ≤ s.pos ∧ s.pos ≤ 8#4)) ∧
        isCat 0x61 = false ∧ isHex 0x61 = false ∧
        ({ s with input := [rec59 0x61] } : State).input = byteRecord 0x61 50 59 :: [] := by decide

/-- HexAlphabetIsTheSixteenCharacters. -/
theorem witness_hex : isHex 0x30 = true ∧ isHex 0x39 = true ∧ isHex 0x41 = true ∧ isHex 0x46 = true := by decide

/-- StopTimeIsSetByErrorOrCompletion, ErrorEndsThePacketAtOnce: an error, an error with completion, a completion,
and neither. -/
theorem witness_answers :
    (raiseErr .wrongFrameLength (statusE 5 0)).err = some .wrongFrameLength ∧
      ((⟨statusE 5 0, some .malformedStatusValue, true⟩ : SubResult).err = some .malformedStatusValue ∧
        (⟨statusE 5 0, some .malformedStatusValue, true⟩ : SubResult).complete = true) ∧
      ((completed (statusE 5 0)).err = none ∧ (completed (statusE 5 0)).complete = true) ∧
      ((goOn (statusE 1 0)).err = none ∧ (goOn (statusE 1 0)).complete = false) := by decide

/-- RecordIsBuiltFromTheFinalState, one witness for each clause. -/
theorem witness_signals :
    (signalsOf (raiseErr .markerBitMissing (freshE 0x02)) 59).err = some .markerBitMissing ∧
      (signalsOf (completed (statusE 5 0)) 59).err = none ∧ (statusE 5 0).sub = .status ∧
      (signalsOf (completed (dataE 9 0)) 59).err = none ∧ (dataE 9 0).sub = .data := by decide

/-- OutputPortsShowTheRecord: a state with a record and one with none. -/
theorem witness_out :
    (finished .data (errorRecord 5 59 (freshE 0x02)) (freshE 0x02)).out = some (errorRecord 5 59 (freshE 0x02)) ∧
      idleE.out = none := by decide

/-- LabelLookupReadsItsOwnCategory: the values beside the keys. -/
theorem witness_labels : isCat 0x00 = false ∧ isCat 0x04 = false ∧ isCat 0x06 = false := by decide

/-- StepRunsTheDecodedRow. -/
theorem witness_step : (∃ r rest, ({ idleE with input := [rec59 0x01] } : State).input = r :: rest) ∧ idleE.input = [] :=
  ⟨⟨_, _, rfl⟩, rfl⟩

/-- WrittenOutWordsDecode. -/
theorem witness_words : paramsE.statusSoh = 0x01 ∧ paramsE.statusLabel = 0x0F := by decide

/-- DecodeInvertsEncode, RowRunsExactlyWhereSelected: a selected row at each level, and one that is not selected. -/
theorem witness_selected :
    selected paramsE (statusE 1 0).context (.byteIn 0x33 50 59) = true ∧
      selected paramsE (statusE 1 0).context (.forward 0x33 59) = true ∧
      selected paramsE (statusE 1 0).context (.sHex3 59) = true ∧
      selected paramsE (statusE 5 0).context (.sHex3 59) = false := by decide

/-- EveryInputReadsAsASelectedRow, one witness for each clause. -/
theorem witness_inputs :
    isByte (rec59 0x33) = true ∧ (⟨true, true, 0x33, 50, 59⟩ : PortIn).rst = true ∧ isGap noRecord = true := by decide

/-- ParametersNeverChange: a row that runs, and a run. -/
theorem witness_params :
    (∃ t, exec (.sHex3 59) (statusE 1 0) = .next t) ∧
      ∃ t, run 2 { idleE with input := [rec59 0x01, rec59 0x8F] } = .next t := ⟨⟨_, rfl⟩, ⟨_, rfl⟩⟩

/-- OpenPacketIsConstantWhileItLasts: a payload byte, and a gap. -/
theorem witness_openPacket :
    ∀ r ∈ [rec59 0x33, noRecord],
      ((nextOf (step { dataE 3 0x12 with input := [r] })).map (fun t => t.ctrl)) = some .opened ∧
        (dataE 3 0x12).ctrl = .opened ∧ ¬ (isByte r = true ∧ isCat r.inByte = true) := by decide

/-- AccumulatorIsWrittenOnlyByNibbles, HeaderRegistersAreWrittenOnlyByDataHeaders: a hex row, a header row, and a row that
is neither. -/
theorem witness_frames :
    (∃ t, exec (.sHex3 59) (statusE 1 0) = .next t) ∧ isUmbrella (.sHex3 59) = false ∧ opensOrResets (.sHex3 59) = false ∧
      isHexRow (.sHex3 59) = true ∧
    (∃ t, exec (.hdrDataF5 2 59) (freshE 0x02) = .next t ∧ t.hdrFlag ≠ (freshE 0x02).hdrFlag) ∧
      isHexRow (.hdrDataF5 2 59) = false ∧ opensOrResets (.hdrDataF5 2 59) = false ∧
      isUmbrella (.hdrDataF5 2 59) = false := by
  exact ⟨⟨_, rfl⟩, rfl, rfl, by decide, ⟨_, rfl, by decide⟩, by decide, rfl, rfl⟩

/-- RecordLeavesInTheFinishingStep, both clauses. -/
theorem witness_finishing :
    ∃ t r, step { statusE 5 0x2A with input := [rec59 0x0D] } = .next t ∧ t.out = some r ∧ (statusE 5 0x2A).ctrl = .opened ∧
      isByte (rec59 0x0D) = true ∧ t.ctrl = .idle := ⟨_, _, rfl, rfl, rfl, rfl, rfl⟩

/-- StatusFrameDecodesToItsValue, from the middle of a data packet. -/
theorem witness_statusFrame :
    isCat (dataE 4 0).params.statusSoh = true ∧
      ({ dataE 4 0 with input := streamFrom (fun k => 10 * k) (fun k => 10 * k + 9) 0 (statusForm paramsE 0x01 0x2A) } :
        State).input =
        streamFrom (fun k => 10 * k) (fun k => 10 * k + 9) 0
          (statusForm (dataE 4 0).params (dataE 4 0).params.statusSoh 0x2A) ++ [] := by decide

/-- DataFrameDecodesToItsWord, with the highest flag code and a NaN word. -/
theorem witness_dataFrame :
    isCat 0x05 = true ∧ 5#3 ≤ 5#3 ∧ labelDefined idleE.params 0x05 2 = true ∧
      recognize idleE.params 0x05 (headerByte 5 2) = false ∧
      ({ idleE with input := streamFrom (fun k => 10 * k) (fun k => 10 * k + 9) 0 (dataForm 0x05 5 2 0x7FC00001) } :
        State).input =
        streamFrom (fun k => 10 * k) (fun k => 10 * k + 9) 0 (dataForm 0x05 5 2 0x7FC00001) ++ [] := by decide

/-- StaleRegistersAreUnobservable: two Idle states that differ in the stale registers. -/
theorem witness_stale :
    idleE.ctrl = .idle ∧ ({ dataE 10 0x3F800000 with ctrl := .idle } : State).ctrl = .idle ∧
      idleE.params = ({ dataE 10 0x3F800000 with ctrl := .idle } : State).params ∧
      idleE.input = ({ dataE 10 0x3F800000 with ctrl := .idle } : State).input ∧
      idleE ≠ ({ dataE 10 0x3F800000 with ctrl := .idle } : State) := by
  refine ⟨rfl, rfl, rfl, rfl, fun h => ?_⟩
  exact absurd (congrArg State.acc h) (by decide)

/-- StepDependsOnNoLaterInput. -/
theorem witness_later : ∃ t, step { statusE 1 0 with input := rec59 0x33 :: [rec59 0x01] } = .next t := ⟨_, rfl⟩

/-- EndOfStreamEmitsNothing: an open packet with nothing left to come. -/
theorem witness_endOfStream : (dataE 9 0x3F800000).input = [] ∧ (dataE 9 0x3F800000).ctrl = .opened := by decide

/-- BytesBeforeAFrameStartAreDropped, with k = 2: a byte, a gap and a byte before a frame start; and at the last k. -/
theorem witness_dropped :
    idleE.ctrl = .idle ∧
      2 < ({ idleE with input := [rec59 0x33, noRecord, rec59 0x0D, rec59 0x01] } : State).input.length ∧
      2 < ({ idleE with input := [rec59 0x33, noRecord, rec59 0x0D] } : State).input.length ∧
      ∀ r ∈ [rec59 0x33, noRecord, rec59 0x0D, rec59 0x01].take 3,
        isGap r = true ∨ (isByte r = true ∧ isCat r.inByte = false) := by decide

/-- PacketIsFinishedWithinTenBytes: the longest packet, from its header on. -/
theorem witness_tenBytes :
    ({ freshE 0x02 with input := (rec59 0x91) :: List.replicate 9 (rec59 0x33) } : State).Inv ∧
      (freshE 0x02).ctrl = .opened ∧ 10 ≤ ((rec59 0x91) :: List.replicate 9 (rec59 0x33)).length ∧
      ∀ r ∈ ((rec59 0x91) :: List.replicate 9 (rec59 0x33)).take 10, isByte r = true ∧ isCat r.inByte = false := by decide

/-- RecordTimesAreOrdered: an open packet, started at time 10, with a byte and a later byte to come. -/
theorem witness_times :
    inputContract [byteRecord 0x0D 50 59, byteRecord 0x01 60 69] ∧
      ({ statusE 5 0 with input := [byteRecord 0x0D 50 59, byteRecord 0x01 60 69] } : State).StartedInTime ∧
      ∃ t r, step { statusE 5 0 with input := [byteRecord 0x0D 50 59, byteRecord 0x01 60 69] } = .next t ∧
        t.out = some r := by
  refine ⟨by unfold inputContract; decide, ?_, _, _, rfl, rfl⟩
  unfold State.StartedInTime
  decide

/-- FiniteWordsAreScaledIntegers: the ends of both classes. -/
theorem witness_finite :
    fclass 0x00000001 = .subnormal ∧ fclass 0x007FFFFF = .subnormal ∧ fclass 0x00800000 = .normal ∧
      fclass 0x7F7FFFFF = .normal := by decide

/-- DistinctWordsDenoteDistinctValues: its premise holds of a word and itself. -/
theorem witness_distinct : floatValue 0x3F800000 = floatValue 0x3F800000 := rfl

end Sys2Proof.Tests
end

section
/-! PROOFS. What one row and one step can do, said once: the effect of every row of the opcode table, the move a byte
makes an open packet take, and the five kinds of step. -/

namespace Sys2Proof.Machine

/-! ## The effect of a row -/

/-- Everything a row that completes in `s` can do: the state it leaves, with the row. -/
inductive RowEffect (s : State) : State → Instr → Prop
  | opens (b : Byte) (ts : Time) (i : Instr) (h : isUmbrella i = true ∨ opensOrResets i = true) :
      RowEffect s (openPacket b ts s) i
  | resets : RowEffect s (resetRegisters s) .reset
  | quiet (i : Instr) : RowEffect s (noOutput s) i
  | feeds (b : Byte) (te : Time) (i : Instr) (h : isUmbrella i = true) : RowEffect s (packetFeed b te s) i
  | signature (te : Time) : RowEffect s { s with sub := .status, pos := s.pos + 1#4, out := none } (.hdrStatus te)
  | statusHex (n : BitVec 4) (te : Time) : RowEffect s (statusNibble n te s) (statusHexRow n te)
  | dataHex (n : BitVec 4) (te : Time) : RowEffect s (dataNibble n te s) (dataHexRow n te)
  | header (f : BitVec 3) (l : BitVec 4) (te : Time) (hf : f ≤ 5#3) :
      RowEffect s (dataHeaderLabel f l te s) (dataHeaderRow f l te)
  | finishes (sub : SubDecoder) (r : OutRecord) (i : Instr) : RowEffect s (finished sub r s) i

/-- The end of every arm of `exec` that is guarded by the row's condition. -/
theorem RowEffect.of_runRow {i : Instr} {s t u : State} (h : runRow i s u = .next t) (e : RowEffect s u i) :
    RowEffect s t i := by
  obtain ⟨-, rfl⟩ := runRow_eq_next h
  exact e

theorem execByteIn_rowEffect {b : Byte} {ts te : Time} {s t : State} (h : execByteIn b ts te s = .next t) :
    RowEffect s t (.byteIn b ts te) := by
  unfold execByteIn at h
  split_ifs at h <;> cases h
  · exact .opens b ts _ (.inl rfl)
  · exact .quiet _
  · exact .feeds b te _ rfl

/-- One lemma for all 58 rows: what a row that completes has done. -/
theorem exec_rowEffect {i : Instr} {s t : State} (h : exec i s = .next t) : RowEffect s t i := by
  cases i with
  | byteIn b ts te => exact execByteIn_rowEffect h
  | fs01 ts | fs02 ts | fs03 ts | fs05 ts => cases h; exact .opens _ _ _ (.inr rfl)
  | reset => cases h; exact .resets
  | noInput => cases h; exact .quiet _
  | idleDrop b => exact .of_runRow h (.quiet _)
  | forward b te => exact .of_runRow h (.feeds b te _ rfl)
  | hdrStatus te => exact .of_runRow h (.signature te)
  | hdrDataF0 l te | hdrDataF1 l te | hdrDataF2 l te | hdrDataF3 l te | hdrDataF4 l te | hdrDataF5 l te =>
    exact .of_runRow h (.header _ l te (by decide))
  | sHex0 te | sHex1 te | sHex2 te | sHex3 te | sHex4 te | sHex5 te | sHex6 te | sHex7 te
  | sHex8 te | sHex9 te | sHexA te | sHexB te | sHexC te | sHexD te | sHexE te | sHexF te =>
    exact .of_runRow h (.statusHex _ te)
  | dHex0 te | dHex1 te | dHex2 te | dHex3 te | dHex4 te | dHex5 te | dHex6 te | dHex7 te
  | dHex8 te | dHex9 te | dHexA te | dHexB te | dHexC te | dHexD te | dHexE te | dHexF te =>
    exact .of_runRow h (.dataHex _ te)
  | sPayloadNonhex b te | sTermOther b te | sOverrun b te => exact .of_runRow h (.finishes .status _ _)
  | dPayloadNonhex b te | dTermOther b te | dOverrun b te => exact .of_runRow h (.finishes .data _ _)
  | hdrNomarker low te => exact .of_runRow h (.finishes .data _ _)
  | hdrBadflag f l te => exact .of_runRow h (.finishes .data _ _)
  | sTermCr te => exact .of_runRow h (.finishes .status (statusRecord te s) _)
  | dTermCr te => exact .of_runRow h (.finishes .data (dataRecord te s) _)

/-! ## The move of an open packet -/

/-- Everything a byte that starts no frame can make the open packet of `s` do (R71 to R88). `signature` and `header`
also cover the unreachable packets with a sub-decoder at position 0 (log entry 7). -/
inductive PacketMove (s : State) (b : Byte) (te : Time) : State → Prop
  | signature (h : s.sub = .none ∧ s.cat = s.params.statusSoh ∨ s.sub = .status ∧ s.pos = 0#4) :
      PacketMove s b te { s with sub := .status, pos := s.pos + 1#4, out := none }
  | header (h : s.sub = .none ∨ s.sub = .data ∧ s.pos = 0#4) (hf : flagCode b ≤ 5#3)
      (hl : labelDefined s.params s.cat (labelCode b) = true) :
      PacketMove s b te
        { s with sub := .data, pos := s.pos + 1#4, hdrFlag := flagCode b, hdrLabel := labelCode b, out := none }
  | nibble (h : s.sub = .status ∧ s.pos ≤ 4#4 ∨ s.sub = .data ∧ s.pos ≤ 8#4) (hpos : s.pos ≠ 0#4)
      (hx : isHex b = true) :
      PacketMove s b te { s with pos := s.pos + 1#4, acc := (s.acc <<< 4) ||| (nib b).setWidth 32, out := none }
  | error (sub : SubDecoder) (k : ErrorKind) (h : k ≠ .malformedStatusValue ∧ k ≠ .malformedFloatValue) :
      PacketMove s b te (finished sub (errorRecord k.code te s) s)
  | statusDone (h : s.sub = .status) (hpos : s.pos = 5#4) :
      PacketMove s b te (finished .status (statusRecord te s) s)
  | dataDone (h : s.sub = .data) (hpos : s.pos = 9#4) : PacketMove s b te (finished .data (dataRecord te s) s)

/-- The row completes in `s` with a move of the open packet. -/
def MovesPacket (i : Instr) (b : Byte) (te : Time) (s : State) : Prop :=
  ∃ t, exec i s = .next t ∧ PacketMove s b te t

/-- A row that is guarded by its condition makes the move that it describes, where it is selected. -/
theorem MovesPacket.of_runRow {i : Instr} {b : Byte} {te : Time} {s t : State} (he : exec i s = runRow i s t)
    (hs : selected s.params s.context i = true) (m : PacketMove s b te t) : MovesPacket i b te s :=
  ⟨t, he.trans (runRow_of_selected t hs), m⟩

/-- The header check of the data decoder, at the header position (R85). -/
theorem dataHeader_packetMove {s : State} (b : Byte) (te : Time) (h : s.sub = .none ∨ s.sub = .data ∧ s.pos = 0#4) :
    PacketMove s b te (conclude .data te (dataHeader b (advance s))) := by
  unfold dataHeader
  split_ifs with hm hbad
  · exact .error .data .markerBitMissing (by decide)
  · exact .error .data .unknownFieldOrFlag (by decide)
  · simp only [not_or, BitVec.not_lt, Bool.not_eq_true, Bool.not_eq_false'] at hbad
    obtain ⟨hf, hl⟩ := hbad
    exact .header h hf hl

/-- The data rows of the header position do what `dataHeader` says. -/
theorem exec_decodeHeader_data {s : State} {b : Byte} (te : Time) (ho : s.ctrl = .opened) (hs : s.sub = .none)
    (hc : isCat b = false) (hr : recognize s.params s.cat b = false) :
    exec (decodeHeader s.params s.cat b te) s = .next (conclude .data te (dataHeader b (advance s))) := by
  have hctx : s.context.atHeader = true := by simp [Context.atHeader, ho, hs]
  unfold decodeHeader
  by_cases hm : markerBit b = true
  · have hrow : s.context.atDataHeader s.params (flagCode b) (labelCode b) = true := by
      simp [Context.atDataHeader, hctx, headerByte_of_markerBit hm, hr]
    by_cases hf : Config.maxFlag < flagCode b
    · simp only [hr, hm, hf, dataHeader, Bool.not_true, Bool.false_eq_true, true_or, if_true, if_false]
      exact runRow_of_selected _ (by simp [selected, wellFormed, inContext, hf, hrow])
    · have hle : flagCode b ≤ 5#3 := BitVec.not_lt.1 hf
      simp only [hr, hm, hf, dataHeader, Bool.not_true, Bool.false_eq_true, false_or, if_false,
        exec_dataHeaderRow hle, hrow, if_true, dataHeaderLabel]
      cases hl : labelDefined s.params s.cat (labelCode b) <;> simp [hl, dataError]
  · have hm : markerBit b = false := by simpa using hm
    simp only [hr, hm, dataHeader, Bool.not_false, Bool.false_eq_true, if_true, if_false]
    exact runRow_of_selected _ (by simp [selected, wellFormed, inContext, hctx, lowBits_setWidth hm, hc])

theorem decodeHeader_movesPacket {s : State} {b : Byte} (te : Time) (ho : s.ctrl = .opened) (hs : s.sub = .none)
    (hc : isCat b = false) : MovesPacket (decodeHeader s.params s.cat b te) b te s := by
  by_cases hr : recognize s.params s.cat b = true
  · have hcat := (recognize_eq_true.1 hr).1
    rw [decodeHeader, if_pos hr]
    exact .of_runRow rfl (by simp [selected, wellFormed, inContext, Context.atHeader, ho, hs, hcat])
      (.signature (.inl ⟨hs, hcat⟩))
  · exact ⟨_, exec_decodeHeader_data te ho hs hc (by simpa using hr), dataHeader_packetMove b te (.inl hs)⟩

/-- A position other than 0 is 1 or beyond. -/
theorem one_le_of_ne_zero {p : BitVec 4} (h : p ≠ 0#4) : 1#4 ≤ p := by revert p; decide

theorem decodeStatus_movesPacket {s : State} {b : Byte} (te : Time) (ho : s.ctrl = .opened) (hs : s.sub = .status)
    (hc : isCat b = false) : MovesPacket (decodeStatus s.pos b te) b te s := by
  unfold decodeStatus
  split_ifs with h0 h4 hx h5 hcr
  · have feeds : packetFeed b te s = { s with sub := .status, pos := s.pos + 1#4, out := none } := by
      simp [packetFeed, hs, delegate, statusFeed, h0, statusHeader, conclude_goOn, advance]
    exact .of_runRow (feeds ▸ rfl) (by simp [selected, wellFormed, inContext, ho, hc]) (.signature (.inr ⟨hs, h0⟩))
  · have hrow : s.context.atStatusPayload = true := by
      simp [Context.atStatusPayload, ho, hs, h4, one_le_of_ne_zero h0]
    refine ⟨_, (exec_statusHexRow _ te s).trans (if_pos hrow), ?_⟩
    simpa [statusNibble_eq, ← hs] using PacketMove.nibble (te := te) (.inl ⟨hs, h4⟩) h0 hx
  · exact .of_runRow rfl
      (by simp [selected, wellFormed, inContext, Context.atStatusPayload, ho, hs, h4, one_le_of_ne_zero h0, hc, hx])
      (.error .status .nonHexPayloadByte (by decide))
  · exact .of_runRow rfl (by simp [selected, wellFormed, inContext, Context.atStatusTerm, ho, hs, h5]) (.statusDone hs h5)
  · exact .of_runRow rfl (by simp [selected, wellFormed, inContext, Context.atStatusTerm, ho, hs, h5, hc, hcr])
      (.error .status .wrongFrameLength (by decide))
  · have h6 : 6#4 ≤ s.pos := by bv_omega
    exact .of_runRow rfl (by simp [selected, wellFormed, inContext, Context.atStatusOverrun, ho, hs, h6, hc])
      (.error .status .wrongFrameLength (by decide))

theorem decodeData_movesPacket {s : State} {b : Byte} (te : Time) (ho : s.ctrl = .opened) (hs : s.sub = .data)
    (hc : isCat b = false) : MovesPacket (decodeData s.pos b te) b te s := by
  unfold decodeData
  split_ifs with h0 h8 hx h9 hcr
  · have feeds : packetFeed b te s = conclude .data te (dataHeader b (advance s)) := by
      simp [packetFeed, hs, delegate, dataFeed, h0]
    exact .of_runRow (feeds ▸ rfl) (by simp [selected, wellFormed, inContext, ho, hc])
      (dataHeader_packetMove b te (.inr ⟨hs, h0⟩))
  · have hrow : s.context.atDataPayload = true := by
      simp [Context.atDataPayload, ho, hs, h8, one_le_of_ne_zero h0]
    refine ⟨_, (exec_dataHexRow _ te s).trans (if_pos hrow), ?_⟩
    simpa [dataNibble_eq, ← hs] using PacketMove.nibble (te := te) (.inr ⟨hs, h8⟩) h0 hx
  · exact .of_runRow rfl
      (by simp [selected, wellFormed, inContext, Context.atDataPayload, ho, hs, h8, one_le_of_ne_zero h0, hc, hx])
      (.error .data .nonHexPayloadByte (by decide))
  · exact .of_runRow rfl (by simp [selected, wellFormed, inContext, Context.atDataTerm, ho, hs, h9]) (.dataDone hs h9)
  · exact .of_runRow rfl (by simp [selected, wellFormed, inContext, Context.atDataTerm, ho, hs, h9, hc, hcr])
      (.error .data .wrongFrameLength (by decide))
  · have h10 : 10#4 ≤ s.pos := by bv_omega
    exact .of_runRow rfl (by simp [selected, wellFormed, inContext, Context.atDataOverrun, ho, hs, h10, hc])
      (.error .data .wrongFrameLength (by decide))

/-- The packet level of the decoder, in every context of an open packet. -/
theorem decodePacket_movesPacket {s : State} {b : Byte} (te : Time) (ho : s.ctrl = .opened) (hc : isCat b = false) :
    MovesPacket (decodePacket s.params s.context b te) b te s := by
  unfold decodePacket
  split <;> rename_i hs
  · exact decodeHeader_movesPacket te ho hs hc
  · exact decodeStatus_movesPacket te ho hs hc
  · exact decodeData_movesPacket te ho hs hc

/-! ## The five kinds of step -/

theorem eq_byteRecord_of_isByte {r : PortIn} (h : isByte r = true) : r = byteRecord r.inByte r.inTs r.inTe := by
  obtain ⟨rst, inValid, b, ts, te⟩ := r
  simp only [isByte, Bool.and_eq_true, Bool.not_eq_true'] at h
  simp [byteRecord, h]

/-- RESET (R110). -/
theorem step_of_rst {s : State} (h : s.ports.rst = true) : step s = .next (resetRegisters s.takeInput) := by
  simp [step, State.row, decode, decodePort, h, exec, execReset]

/-- NO_INPUT (R68). -/
theorem step_of_gap {s : State} (h : isGap s.ports = true) : step s = .next (noOutput s.takeInput) := by
  simp only [isGap, Bool.and_eq_true, Bool.not_eq_true'] at h
  simp [step, State.row, decode, decodePort, h, exec, execNoInput]

/-- A frame start, in any state (R64). -/
theorem step_of_frameStart {s : State} (h : isByte s.ports = true) (hc : isCat s.ports.inByte = true) :
    step s = .next (openPacket s.ports.inByte s.ports.inTs s.takeInput) := by
  rw [step, State.row, eq_byteRecord_of_isByte h, decode_frameStart _ _ _ _ hc]
  exact exec_frameStartRow hc _ _

/-- IDLE_DROP (R65). -/
theorem step_of_drop {s : State} (h : isByte s.ports = true) (hc : isCat s.ports.inByte = false)
    (hi : s.ctrl = .idle) : step s = .next (noOutput s.takeInput) := by
  rw [step, State.row, eq_byteRecord_of_isByte h, decode_idle _ _ _ hc hi]
  exact runRow_of_selected _ (by simp [selected, wellFormed, inContext, hc, hi])

/-- A byte for the open packet (R66). -/
theorem step_of_packet {s : State} (h : isByte s.ports = true) (hc : isCat s.ports.inByte = false)
    (ho : s.ctrl = .opened) :
    ∃ t, step s = .next t ∧ PacketMove s.takeInput s.ports.inByte s.ports.inTe t := by
  rw [step, State.row, eq_byteRecord_of_isByte h, decode_opened _ _ _ hc ho]
  exact decodePacket_movesPacket (s := s.takeInput) _ ho hc

/-- Everything a step can do, with the input that makes it do so. -/
inductive StepKind (s : State) : State → Prop
  | reset (h : s.ports.rst = true) : StepKind s (resetRegisters s.takeInput)
  | gap (h : isGap s.ports = true) : StepKind s (noOutput s.takeInput)
  | frameStart (h : isByte s.ports = true) (hc : isCat s.ports.inByte = true) :
      StepKind s (openPacket s.ports.inByte s.ports.inTs s.takeInput)
  | drop (h : isByte s.ports = true) (hc : isCat s.ports.inByte = false) (hi : s.ctrl = .idle) :
      StepKind s (noOutput s.takeInput)
  | packet {t : State} (h : isByte s.ports = true) (hc : isCat s.ports.inByte = false) (ho : s.ctrl = .opened)
      (m : PacketMove s.takeInput s.ports.inByte s.ports.inTe t) : StepKind s t

/-- The ports present a reset, a gap or a byte. -/
theorem ports_cases (r : PortIn) : r.rst = true ∨ isGap r = true ∨ isByte r = true := by
  obtain ⟨rst, inValid, b, ts, te⟩ := r
  cases rst <;> cases inValid <;> simp [isGap, isByte]

theorem not_isByte_of_rst {r : PortIn} (h : r.rst = true) : isByte r = false := by simp [isByte, h]

theorem not_isByte_of_isGap {r : PortIn} (h : isGap r = true) : isByte r = false := by
  simp only [isGap, Bool.and_eq_true, Bool.not_eq_true'] at h
  simp [isByte, h]

/-- Every step has one of the five kinds; in particular none stops. -/
theorem exists_step_stepKind (s : State) : ∃ t, step s = .next t ∧ StepKind s t := by
  rcases ports_cases s.ports with h | h | h
  · exact ⟨_, step_of_rst h, .reset h⟩
  · exact ⟨_, step_of_gap h, .gap h⟩
  · cases hc : isCat s.ports.inByte
    · cases ho : s.ctrl
      · exact ⟨_, step_of_drop h hc ho, .drop h hc ho⟩
      · obtain ⟨t, ht, m⟩ := step_of_packet h hc ho
        exact ⟨t, ht, .packet h hc ho m⟩
    · exact ⟨_, step_of_frameStart h hc, .frameStart h hc⟩

theorem stepKind_of_step {s t : State} (h : step s = .next t) : StepKind s t := by
  obtain ⟨u, hu, k⟩ := exists_step_stepKind s
  cases h.symm.trans hu
  exact k

end Sys2Proof.Machine
end

section
/-! PROOFS. The obligations about the state: its invariants, its frames, what a record may be, and the stale registers. -/

namespace Sys2Proof.Machine

/-! ## What a row and a step leave alone -/

theorem packetFeed_params_input (b : Byte) (te : Time) (s : State) :
    (packetFeed b te s).params = s.params ∧ (packetFeed b te s).input = s.input := by
  unfold packetFeed
  generalize (if s.sub = .none then classify s.params s.cat b else s.sub) = sub
  obtain ⟨hp, -, -, -, -, -, -, hin, -⟩ := conclude_frame sub te (delegate sub b s)
  have keeps := delegate_keepsPacket sub b s
  exact ⟨hp.trans keeps.params, hin.trans keeps.input⟩

theorem dataHeaderLabel_params_input (f : BitVec 3) (l : BitVec 4) (te : Time) (s : State) :
    (dataHeaderLabel f l te s).params = s.params ∧ (dataHeaderLabel f l te s).input = s.input := by
  rw [dataHeaderLabel_eq]
  split <;> exact ⟨rfl, rfl⟩

/-- No row writes the configuration, and none takes input. -/
theorem exec_params_input {i : Instr} {s t : State} (h : exec i s = .next t) :
    t.params = s.params ∧ t.input = s.input := by
  cases exec_rowEffect h with
  | feeds b te _ _ => exact packetFeed_params_input b te s
  | header f l te _ => exact dataHeaderLabel_params_input f l te s
  | _ => exact ⟨rfl, rfl⟩

theorem step_params_input {s t : State} (h : step s = .next t) : t.params = s.params ∧ t.input = s.input.tail :=
  exec_params_input h

theorem run_succ_of_step {k : Nat} {s t : State} (h : step s = .next t) : run (k + 1) s = run k t := by
  simp [run, h]

theorem observe_succ_of_step {k : Nat} {s t : State} (h : step s = .next t) :
    observe (k + 1) s = t.out.toList ++ observe k t := by
  simp [observe, h]

/-- A run that completes takes one port value a step. -/
theorem run_params_input (k : Nat) (s t : State) (h : run k s = .next t) :
    t.params = s.params ∧ t.input = s.input.drop k := by
  induction k generalizing s with
  | zero => cases h; exact ⟨rfl, rfl⟩
  | succ k ih =>
    obtain ⟨u, hu, -⟩ := exists_step_stepKind s
    rw [run_succ_of_step hu] at h
    obtain ⟨hp, hin⟩ := ih u h
    obtain ⟨hp', hin'⟩ := step_params_input hu
    exact ⟨hp.trans hp', by rw [hin, hin', List.drop_tail]⟩

/-- What a move of the open packet leaves alone. -/
theorem PacketMove.frame {s t : State} {b : Byte} {te : Time} (m : PacketMove s b te t) :
    t.params = s.params ∧ t.cat = s.cat ∧ t.tStart = s.tStart ∧ t.pos = s.pos + 1#4 := by
  cases m <;> exact ⟨rfl, rfl, rfl, rfl⟩

/-- A packet that a byte leaves open has a sub-decoder from then on, and the one it had before. -/
theorem PacketMove.sub_of_opened {s t : State} {b : Byte} {te : Time} (m : PacketMove s b te t)
    (ho : t.ctrl = .opened) : t.sub ≠ .none ∧ (s.sub ≠ .none → t.sub = s.sub) := by
  cases m with
  | signature h => exact ⟨by simp, fun hs => by simpa [hs, eq_comm] using h.elim (absurd ·.1 hs) And.left⟩
  | header h _ _ => exact ⟨by simp, fun hs => by simpa [hs, eq_comm] using h.elim (absurd · hs) And.left⟩
  | nibble h _ _ => exact ⟨by rcases h with ⟨h, -⟩ | ⟨h, -⟩ <;> simp [h], fun _ => rfl⟩
  | error | statusDone | dataDone => cases ho

/-- A record carries the packet's category and start time, and the end time of the byte (R76). -/
theorem PacketMove.record_span {s t : State} {b : Byte} {te : Time} {r : OutRecord} (m : PacketMove s b te t)
    (hr : t.out = some r) : r.cat = s.cat ∧ r.ts = s.tStart ∧ r.te = te := by
  cases m <;> cases hr <;> exact ⟨rfl, rfl, rfl⟩

/-- A record is driven only for a byte of an open packet (R67). -/
theorem StepKind.packetMove_of_record {s t : State} {r : OutRecord} (k : StepKind s t) (hr : t.out = some r) :
    s.ctrl = .opened ∧ isByte s.ports = true ∧ PacketMove s.takeInput s.ports.inByte s.ports.inTe t := by
  cases k with
  | packet h _ ho m => exact ⟨ho, h, m⟩
  | reset | gap | frameStart | drop => cases hr

/-! ## The invariants of R34 -/

theorem inv_of_idle {s : State} (h : s.ctrl = .idle) : s.Inv := by simp [State.Inv, h]

theorem inv_openPacket {b : Byte} (hc : isCat b = true) (ts : Time) (s : State) : (openPacket b ts s).Inv := by
  simp [State.Inv, hc]

/-- One more nibble in an accumulator of `p` nibbles, p < 8. -/
theorem shiftNibble_lt {a : Word} {p : Nat} (n : BitVec 4) (hp : p < 8) (h : a.toNat < 16 ^ p) :
    ((a <<< 4) ||| n.setWidth 32).toNat < 16 ^ (p + 1) := by
  have hn := n.isLt
  rw [shiftNibble_toNat n hp h, Nat.pow_succ]
  omega

/-- A packet whose sub-decoder is still to be chosen, by the invariants or by the move itself, has consumed nothing. -/
theorem inv_fresh {s : State} (hi : s.Inv) (ho : s.ctrl = .opened)
    (h : s.sub = .none ∨ (s.sub = .status ∨ s.sub = .data) ∧ s.pos = 0#4) :
    s.sub = .none ∧ s.pos = 0#4 ∧ s.acc = 0#32 := by
  obtain ⟨-, fresh, status, data⟩ := hi
  rcases h with h | ⟨h | h, h0⟩
  · exact ⟨h, fresh ho h⟩
  · obtain ⟨-, hpos, -⟩ := status ho h
    rw [h0] at hpos
    exact absurd hpos (by decide)
  · obtain ⟨hpos, -⟩ := data ho h
    rw [h0] at hpos
    exact absurd hpos (by decide)

/-- The invariants of a status packet are I1 and I3. -/
theorem inv_of_status {s : State} (hs : s.sub = .status) (hcat : isCat s.cat = true)
    (hsoh : s.cat = s.params.statusSoh) (hlo : 1#4 ≤ s.pos) (hhi : s.pos ≤ 5#4) (hacc : s.acc.toNat < 16 ^ (s.pos.toNat - 1)) : s.Inv :=
  ⟨fun _ => hcat, fun _ h => by simp [hs] at h, fun _ _ => ⟨hsoh, hlo, hhi, hacc⟩, fun _ h => by simp [hs] at h⟩

/-- The invariants of a data packet are I1 and I4. -/
theorem inv_of_data {s : State} (hs : s.sub = .data) (hcat : isCat s.cat = true) (hlo : 1#4 ≤ s.pos)
    (hhi : s.pos ≤ 9#4) (hf : s.hdrFlag ≤ 5#3) (hl : labelDefined s.params s.cat s.hdrLabel = true)
    (hacc : s.acc.toNat < 16 ^ (s.pos.toNat - 1)) : s.Inv :=
  ⟨fun _ => hcat, fun _ h => by simp [hs] at h, fun _ h => by simp [hs] at h, fun _ _ => ⟨hlo, hhi, hf, hl, hacc⟩⟩

/-- The bound of the accumulator after one more payload character: the exponent moves on with the position. -/
theorem shiftNibble_lt_of_pos {a : Word} {p : BitVec 4} (n : BitVec 4) (hlo : 1#4 ≤ p) (hhi : p ≤ 8#4)
    (h : a.toNat < 16 ^ (p.toNat - 1)) :
    ((a <<< 4) ||| n.setWidth 32).toNat < 16 ^ ((p + 1#4).toNat - 1) := by
  have hpos : (p + 1#4).toNat - 1 = p.toNat - 1 + 1 := by bv_omega
  rw [hpos]
  exact shiftNibble_lt n (by bv_omega) h

/-- An accepted payload character of an open packet keeps the invariants. -/
theorem inv_nibble {s : State} (hi : s.Inv) (ho : s.ctrl = .opened) (n : BitVec 4)
    (h : s.sub = .status ∧ s.pos ≤ 4#4 ∨ s.sub = .data ∧ s.pos ≤ 8#4) :
    State.Inv { s with pos := s.pos + 1#4, acc := (s.acc <<< 4) ||| n.setWidth 32, out := none } := by
  obtain ⟨cat, -, status, data⟩ := hi
  rcases h with ⟨hs, hle⟩ | ⟨hs, hle⟩
  · obtain ⟨hsoh, hlo, -, hacc⟩ := status ho hs
    exact inv_of_status hs (cat ho) hsoh (by bv_omega) (by bv_omega)
      (shiftNibble_lt_of_pos n hlo (by bv_omega) hacc)
  · obtain ⟨hlo, -, hf, hl, hacc⟩ := data ho hs
    exact inv_of_data hs (cat ho) (by bv_omega) (by bv_omega) hf hl (shiftNibble_lt_of_pos n hlo hle hacc)

theorem PacketMove.inv {s t : State} {b : Byte} {te : Time} (m : PacketMove s b te t) (hi : s.Inv)
    (ho : s.ctrl = .opened) : t.Inv := by
  have cat : s.CatLegal := hi.1
  cases m with
  | signature h =>
    obtain ⟨hs, hpos, hacc⟩ := inv_fresh hi ho (h.imp And.left (.imp_left .inl))
    have hcat : s.cat = s.params.statusSoh := by simpa [hs] using h
    exact inv_of_status rfl (cat ho) hcat (by simp [hpos]) (by simp [hpos]) (by simp [hpos, hacc])
  | header h hf hl =>
    obtain ⟨-, hpos, hacc⟩ := inv_fresh hi ho (h.imp_right (.imp_left .inr))
    exact inv_of_data rfl (cat ho) (by simp [hpos]) (by simp [hpos]) hf hl (by simp [hpos, hacc])
  | nibble h _ _ => exact inv_nibble hi ho _ h
  | error | statusDone | dataDone => exact inv_of_idle rfl

/-- Settles O34: both states are Idle. -/
theorem resetMeetsTheInvariants : Obligations.ResetMeetsTheInvariants :=
  ⟨inv_of_idle rfl, fun _ _ h => by cases h; exact inv_of_idle rfl⟩

/-- Settles O35, kind of step by kind of step. -/
theorem stepKeepsTheInvariants : Obligations.StepKeepsTheInvariants := by
  intro s t hi h
  cases stepKind_of_step h with
  | reset => exact inv_of_idle rfl
  | gap => exact hi
  | frameStart _ hc => exact inv_openPacket hc _ _
  | drop => exact hi
  | packet _ _ ho m => exact m.inv (s := s.takeInput) hi ho

/-! ## Legal records -/

/-- K11: the codes 3 and 4 belong to the two kinds that no move raises, and 7 to none. -/
theorem ErrorKind.code_driven {k : ErrorKind} (hk : k ≠ .malformedStatusValue ∧ k ≠ .malformedFloatValue) :
    k.code = 1#3 ∨ k.code = 2#3 ∨ k.code = 5#3 ∨ k.code = 6#3 := by
  revert hk
  cases k <;> decide

theorem errorRecord_legal {s : State} {k : ErrorKind} (te : Time) (hcat : isCat s.cat = true)
    (hk : k ≠ .malformedStatusValue ∧ k ≠ .malformedFloatValue) : LegalRecord (errorRecord k.code te s) :=
  ⟨hcat, .inl ⟨rfl, ErrorKind.code_driven hk, rfl, rfl, rfl, rfl⟩⟩

theorem statusRecord_legal {s : State} (te : Time) (hcat : isCat s.cat = true) : LegalRecord (statusRecord te s) := by
  refine ⟨hcat, .inr (.inl ⟨rfl, rfl, rfl, rfl, ?_, rfl⟩)⟩
  have h := (s.acc.extractLsb' 0 16).isLt
  simp only [statusRecord, BitVec.toNat_setWidth]
  omega

theorem FClass.code_le (c : FClass) : c.code ≤ 5#3 := by cases c <;> decide

theorem dataRecord_legal {s : State} (te : Time) (hcat : isCat s.cat = true) (hf : s.hdrFlag ≤ 5#3) :
    LegalRecord (dataRecord te s) :=
  ⟨hcat, .inr (.inr ⟨rfl, rfl, hf, rfl, FClass.code_le _⟩)⟩

theorem PacketMove.record_legal {s t : State} {b : Byte} {te : Time} {r : OutRecord} (m : PacketMove s b te t)
    (hi : s.Inv) (ho : s.ctrl = .opened) (hr : t.out = some r) : LegalRecord r := by
  obtain ⟨cat, -, -, data⟩ := hi
  cases m with
  | error _ _ hk => cases hr; exact errorRecord_legal te (cat ho) hk
  | statusDone => cases hr; exact statusRecord_legal te (cat ho)
  | dataDone hs _ =>
    cases hr
    obtain ⟨-, -, hf, -⟩ := data ho hs
    exact dataRecord_legal te (cat ho) hf
  | signature | header | nibble => cases hr

/-- Settles O36: only a byte of an open packet drives a record, and the invariants bound its fields. -/
theorem everyRecordIsLegal : Obligations.EveryRecordIsLegal := by
  intro s t r hi h hr
  obtain ⟨ho, -, m⟩ := (stepKind_of_step h).packetMove_of_record hr
  exact m.record_legal (s := s.takeInput) hi ho hr

/-! ## Frames -/

/-- Settles O37, row by row and then by induction on the number of steps. -/
theorem parametersNeverChange : Obligations.ParametersNeverChange :=
  ⟨fun _ _ _ => exec_params_input, run_params_input⟩

/-- Settles O38: only a gap and a byte for the open packet leave it open. -/
theorem openPacketIsConstantWhileItLasts : Obligations.OpenPacketIsConstantWhileItLasts := by
  intro s t h ho ho' hstart
  cases stepKind_of_step h with
  | reset => cases ho'
  | gap hg => simp [not_isByte_of_isGap hg]
  | frameStart hb hc => exact absurd ⟨hb, hc⟩ hstart
  | drop _ _ hi => simp [hi] at ho
  | packet hb _ _ m =>
    obtain ⟨-, hcat, htime, hpos⟩ := m.frame
    obtain ⟨hsub, hkeep⟩ := m.sub_of_opened ho'
    exact ⟨hcat, htime, hkeep, fun _ => ⟨hsub, hpos⟩, fun hn => absurd hb (by simp [hn])⟩

theorem isHexRow_statusHexRow (n : BitVec 4) (te : Time) : isHexRow (statusHexRow n te) = true := by
  have h : ∀ m : Fin 16, isHexRow (statusHexRow (BitVec.ofFin m) te) = true := by
    intro m
    fin_cases m <;> simp [isHexRow, statusHexRows, statusHexRow, encodeTimes]
  exact h n.toFin

theorem isHexRow_dataHexRow (n : BitVec 4) (te : Time) : isHexRow (dataHexRow n te) = true := by
  have h : ∀ m : Fin 16, isHexRow (dataHexRow (BitVec.ofFin m) te) = true := by
    intro m
    fin_cases m <;> simp [isHexRow, dataHexRows, dataHexRow, encodeTimes]
  exact h n.toFin

theorem eq_statusHexRow_of_mem {row : (Time → Instr) × BitVec 4} (h : row ∈ statusHexRows) :
    row.1 = statusHexRow row.2 := by
  simp only [statusHexRows, List.mem_cons, List.not_mem_nil, or_false] at h
  rcases h with rfl | rfl | rfl | rfl | rfl | rfl | rfl | rfl | rfl | rfl | rfl | rfl | rfl | rfl | rfl | rfl <;> rfl

theorem eq_dataHexRow_of_mem {row : (Time → Instr) × BitVec 4} (h : row ∈ dataHexRows) :
    row.1 = dataHexRow row.2 := by
  simp only [dataHexRows, List.mem_cons, List.not_mem_nil, or_false] at h
  rcases h with rfl | rfl | rfl | rfl | rfl | rfl | rfl | rfl | rfl | rfl | rfl | rfl | rfl | rfl | rfl | rfl <;> rfl

/-- The rows of an accepted payload character, with the character's nibble as the parameter. -/
theorem eq_hexRow_of_isHexRow {i : Instr} (h : isHexRow i = true) :
    ∃ n te, i = statusHexRow n te ∨ i = dataHexRow n te := by
  simp only [isHexRow, List.any_eq_true, List.mem_append, beq_iff_eq] at h
  obtain ⟨row, hmem | hmem, hrow⟩ := h
  · exact ⟨row.2, _, .inl (hrow.symm.trans (congrFun (eq_statusHexRow_of_mem hmem) _))⟩
  · exact ⟨row.2, _, .inr (hrow.symm.trans (congrFun (eq_dataHexRow_of_mem hmem) _))⟩

theorem dataHeaderLabel_acc (f : BitVec 3) (l : BitVec 4) (te : Time) (s : State) :
    (dataHeaderLabel f l te s).acc = s.acc := by
  rw [dataHeaderLabel_eq]
  split <;> rfl

/-- The other rows leave the accumulator alone. -/
theorem acc_of_not_isHexRow {i : Instr} {s t : State} (h : exec i s = .next t) (hu : isUmbrella i = false)
    (ho : opensOrResets i = false) (hx : isHexRow i = false) : t.acc = s.acc := by
  cases exec_rowEffect h with
  | opens _ _ _ h => simp [hu, ho] at h
  | resets => cases ho
  | feeds _ _ _ h => simp [hu] at h
  | statusHex n te => simp [isHexRow_statusHexRow] at hx
  | dataHex n te => simp [isHexRow_dataHexRow] at hx
  | header f l te _ => exact dataHeaderLabel_acc f l te s
  | quiet | signature | finishes => rfl

/-- A payload row shifts in the nibble of its own character. -/
theorem acc_of_isHexRow {i : Instr} {s t : State} (h : exec i s = .next t) (hx : isHexRow i = true) :
    ∃ n : BitVec 4, encodeByte s.params i = some (hexChar n) ∧ t.acc = (s.acc <<< 4) ||| n.setWidth 32 := by
  obtain ⟨n, te, rfl | rfl⟩ := eq_hexRow_of_isHexRow hx
  · refine ⟨n, (selected_statusHexRow s.params s.context n te).2, ?_⟩
    rw [exec_statusHexRow] at h
    split at h <;> cases h
    rfl
  · refine ⟨n, (selected_dataHexRow s.params s.context n te).2, ?_⟩
    rw [exec_dataHexRow] at h
    split at h <;> cases h
    rfl

/-- Settles O39: every effect but a payload character's leaves `acc`, and that one shifts in its own nibble. -/
theorem accumulatorIsWrittenOnlyByNibbles : Obligations.AccumulatorIsWrittenOnlyByNibbles :=
  fun _ _ _ h hu ho => ⟨acc_of_not_isHexRow h hu ho, acc_of_isHexRow h⟩

theorem isDataHeader_dataHeaderRow (f : BitVec 3) (l : BitVec 4) (te : Time) :
    isDataHeader (dataHeaderRow f l te) = true := by
  unfold dataHeaderRow
  split <;> rfl

/-- Settles O40: of the rows asked about, only an accepted data header writes the header registers. -/
theorem headerRegistersAreWrittenOnlyByDataHeaders : Obligations.HeaderRegistersAreWrittenOnlyByDataHeaders := by
  intro i s t h hu ho
  cases exec_rowEffect h with
  | opens _ _ _ h => simp [hu, ho] at h
  | resets => cases ho
  | feeds _ _ _ h => simp [hu] at h
  | quiet | signature | finishes | statusHex | dataHex => exact .inl ⟨rfl, rfl⟩
  | header f l te hf =>
    rw [dataHeaderLabel_eq]
    split
    · exact .inr ⟨isDataHeader_dataHeaderRow f l te, rfl, ‹_›, (selected_dataHeaderRow s.params s.context hf l te).2⟩
    · exact .inl ⟨rfl, rfl⟩

/-! ## The stale registers -/

/-- One step from two Idle states that agree on the configuration and the input: either the next states are the same, or
both states stay Idle, with no record and no register written. -/
theorem step_idle_agree {s t : State} (hs : s.ctrl = .idle) (ht : t.ctrl = .idle) (hp : s.params = t.params)
    (hin : s.input = t.input) :
    step s = step t ∨ (step s = .next (noOutput s.takeInput) ∧ step t = .next (noOutput t.takeInput)) := by
  have hports : t.ports = s.ports := by simp [State.ports, hin]
  rcases ports_cases s.ports with h | h | h
  · left
    rw [step_of_rst h, step_of_rst (hports ▸ h)]
    simp [resetRegisters, State.takeInput, hp, hin]
  · exact .inr ⟨step_of_gap h, step_of_gap (hports ▸ h)⟩
  · have h' : isByte t.ports = true := hports ▸ h
    cases hc : isCat s.ports.inByte
    · exact .inr ⟨step_of_drop h hc hs, step_of_drop h' (hports ▸ hc) ht⟩
    · left
      rw [step_of_frameStart h hc, step_of_frameStart h' (hports ▸ hc), hports]
      simp [openPacket, State.takeInput, hp, hin]

/-- Settles O46, by induction on the number of steps: the two runs stay Idle until a step makes them equal. -/
theorem staleRegistersAreUnobservable : Obligations.StaleRegistersAreUnobservable := by
  intro s t k hs ht hp hin
  induction k generalizing s t with
  | zero => rfl
  | succ k ih =>
    rcases step_idle_agree hs ht hp hin with same | ⟨hs', ht'⟩
    · simp only [observe, same]
    · rw [observe_succ_of_step hs', observe_succ_of_step ht']
      exact ih _ _ hs ht hp (congrArg List.tail hin)

/-! ## The end of every packet -/

/-- The most bytes an open packet that meets the invariants still takes (R58). -/
def bytesLeft (s : State) : Nat :=
  match s.sub with
  | .none => 10
  | .status => 6 - s.pos.toNat
  | .data => 10 - s.pos.toNat

theorem bytesLeft_le (s : State) : bytesLeft s ≤ 10 := by
  unfold bytesLeft
  split <;> omega

theorem bytesLeft_pos {s : State} (hi : s.Inv) (ho : s.ctrl = .opened) : 0 < bytesLeft s := by
  obtain ⟨-, -, status, data⟩ := hi
  cases hs : s.sub with
  | none => simp [bytesLeft, hs]
  | status =>
    obtain ⟨-, -, hpos, -⟩ := status ho hs
    simp only [bytesLeft, hs]
    bv_omega
  | data =>
    obtain ⟨-, hpos, -⟩ := data ho hs
    simp only [bytesLeft, hs]
    bv_omega

/-- A byte finishes the packet with a record, or brings its end nearer. -/
theorem PacketMove.finishes_or_bytesLeft_lt {s t : State} {b : Byte} {te : Time} (m : PacketMove s b te t)
    (hi : s.Inv) (ho : s.ctrl = .opened) :
    (t.ctrl = .idle ∧ t.out.isSome = true) ∨ (t.ctrl = .opened ∧ bytesLeft t < bytesLeft s) := by
  cases m with
  | signature h =>
    obtain ⟨hs, hpos, -⟩ := inv_fresh hi ho (h.imp And.left (.imp_left .inl))
    exact .inr ⟨ho, by simp [bytesLeft, hs, hpos]⟩
  | header h _ _ =>
    obtain ⟨hs, hpos, -⟩ := inv_fresh hi ho (h.imp_right (.imp_left .inr))
    exact .inr ⟨ho, by simp [bytesLeft, hs, hpos]⟩
  | nibble h _ _ =>
    refine .inr ⟨ho, ?_⟩
    rcases h with ⟨hs, hle⟩ | ⟨hs, hle⟩
    · simp only [bytesLeft, hs]
      bv_omega
    · simp only [bytesLeft, hs]
      bv_omega
  | error | statusDone | dataDone => exact .inl ⟨rfl, rfl⟩

/-- The bound for any number of bytes that is enough, by induction on that number. -/
theorem finishes_within (n : Nat) {s : State} (hi : s.Inv) (ho : s.ctrl = .opened) (hn : bytesLeft s ≤ n)
    (hlen : n ≤ s.input.length) (hin : ∀ r ∈ s.input.take n, isByte r = true ∧ isCat r.inByte = false) :
    ∃ k t, k ≤ n ∧ run k s = .next t ∧ t.ctrl = .idle ∧ t.out.isSome = true := by
  induction n generalizing s with
  | zero => exact absurd (bytesLeft_pos hi ho) (by omega)
  | succ n ih =>
    obtain ⟨r, rest, hcons⟩ := List.exists_cons_of_length_pos (lt_of_lt_of_le n.succ_pos hlen)
    obtain ⟨hb, hc⟩ := hin r (by simp [hcons])
    rw [← State.ports_of_cons hcons] at hb hc
    obtain ⟨t, ht, m⟩ := step_of_packet hb hc ho
    rcases m.finishes_or_bytesLeft_lt (s := s.takeInput) hi ho with ⟨hidle, hout⟩ | ⟨hopen, hless⟩
    · exact ⟨1, t, by omega, run_succ_of_step ht, hidle, hout⟩
    · have htail : t.input = rest := by simp [(step_params_input ht).2, hcons]
      have hless : bytesLeft t < bytesLeft s := hless
      obtain ⟨k, u, hk, hrun, hu⟩ := ih (stepKeepsTheInvariants s t hi ht) hopen (by omega)
        (by simpa [htail, hcons] using hlen) (fun r hr => hin r (by simp [hcons, ← htail, hr]))
      exact ⟨k + 1, u, by omega, (run_succ_of_step ht).trans hrun, hu⟩

/-- Settles O50: ten bytes are enough for `bytesLeft` of every state. -/
theorem packetIsFinishedWithinTenBytes : Obligations.PacketIsFinishedWithinTenBytes :=
  fun s hi ho hlen hin => finishes_within 10 hi ho (bytesLeft_le s) hlen hin

/-! ## The times of a record -/

theorem inputContract_tail {l : List PortIn} (h : inputContract l) : inputContract l.tail := by
  obtain ⟨hmono, hrec⟩ := h
  exact ⟨hmono.sublist ((List.tail_sublist l).filter _), fun r hr => hrec r (List.mem_of_mem_tail hr)⟩

/-- A presented byte is the first of the input. -/
theorem input_of_isByte_ports {s : State} (h : isByte s.ports = true) : s.input = s.ports :: s.input.tail := by
  cases hin : s.input with
  | nil => rw [State.ports_of_nil hin] at h; cases h
  | cons r rest => rw [State.ports_of_cons hin, List.tail_cons]

/-- Under the contract, the bytes after the one presented start no earlier. -/
theorem inTs_le_of_mem_tail {s : State} (hc : inputContract s.input) (h : isByte s.ports = true) {r : PortIn}
    (hr : r ∈ s.input.tail) (hb : isByte r = true) : s.ports.inTs ≤ r.inTs := by
  obtain ⟨hmono, -⟩ := hc
  rw [input_of_isByte_ports h, List.filter_cons_of_pos h] at hmono
  exact ((List.pairwise_cons.1 hmono).1 r (List.mem_filter.2 ⟨hr, hb⟩)).1

/-- A step that neither starts a frame nor leaves a packet it did not find keeps the start time in time. -/
theorem startedInTime_of_keeps {s t : State} (hs : s.StartedInTime) (hctrl : t.ctrl = .opened → s.ctrl = .opened)
    (htime : t.tStart = s.tStart) (hin : t.input = s.input.tail) : t.StartedInTime := by
  intro ho r hr hb
  rw [htime]
  exact hs (hctrl ho) r (List.mem_of_mem_tail (hin ▸ hr)) hb

theorem step_startedInTime {s t : State} (hc : inputContract s.input) (hs : s.StartedInTime)
    (h : step s = .next t) : t.StartedInTime := by
  have hin := (step_params_input h).2
  cases stepKind_of_step h with
  | reset => intro ho; cases ho
  | gap => exact startedInTime_of_keeps hs id rfl hin
  | frameStart hb _ => exact fun _ r hr => inTs_le_of_mem_tail hc hb hr
  | drop => exact startedInTime_of_keeps hs id rfl hin
  | packet _ _ ho m =>
    obtain ⟨-, -, htime, -⟩ := m.frame
    exact startedInTime_of_keeps hs (fun _ => ho) htime hin

/-- Settles O51: a record starts at the packet's start time, no later than the byte that finishes it, and stops at that
byte's end. -/
theorem recordTimesAreOrdered : Obligations.RecordTimesAreOrdered := by
  intro s t hc hs h
  refine ⟨(step_params_input h).2 ▸ inputContract_tail hc, step_startedInTime hc hs h, fun r hr => ?_⟩
  obtain ⟨ho, hb, m⟩ := (stepKind_of_step h).packetMove_of_record hr
  obtain ⟨-, hts, hte⟩ := m.record_span hr
  have hmem : s.ports ∈ s.input := by
    rw [input_of_isByte_ports hb]
    exact List.mem_cons_self
  calc
    r.ts = s.tStart := hts
    _ ≤ s.ports.inTs := hs ho _ hmem hb
    _ ≤ s.ports.inTe := hc.2 _ hmem hb
    _ = r.te := hte.symm

/-! ## Reset values and output ports -/

/-- Settles O1: each field is R35's by the definition of the reset state. -/
theorem resetStateHoldsTheSpecifiedValues : Obligations.ResetStateHoldsTheSpecifiedValues :=
  ⟨rfl, rfl, rfl, rfl, rfl, rfl, rfl, rfl, rfl, rfl⟩

theorem mayDrive_of_some {s : State} {r : OutRecord} (h : s.out = some r) (p : OutPorts) :
    s.mayDrive p = true ↔ p = r.onPorts := by
  simp [State.mayDrive, h]

theorem mayDrive_of_none {s : State} (h : s.out = none) (p : OutPorts) :
    s.mayDrive p = true ↔ p.outValid = false := by
  simp [State.mayDrive, h]

/-- Settles O24, by whether the step left a record. -/
theorem outputPortsShowTheRecord : Obligations.OutputPortsShowTheRecord :=
  fun _ p => ⟨fun _ h => mayDrive_of_some h p, fun h => mayDrive_of_none h p⟩

end Sys2Proof.Machine
end

section
/-! PROOFS. The input yet to come: no operation and no row reads it, and what a step does depends on the head alone. -/

namespace Sys2Proof.Machine

/-- `s` with other port values to come. -/
def State.withInput (s : State) (l : List PortIn) : State := { s with input := l }

/-- A sub-decoder's answer, with other port values to come. -/
def SubResult.withInput (r : SubResult) (l : List PortIn) : SubResult := { r with regs := r.regs.withInput l }

@[simp] theorem State.withInput_ite (c : Prop) [Decidable c] (s t : State) (l : List PortIn) :
    (if c then s else t).withInput l = if c then s.withInput l else t.withInput l :=
  apply_ite (State.withInput · l) c s t

@[simp] theorem SubResult.withInput_ite (c : Prop) [Decidable c] (r r' : SubResult) (l : List PortIn) :
    (if c then r else r').withInput l = if c then r.withInput l else r'.withInput l :=
  apply_ite (SubResult.withInput · l) c r r'

/-! ## The operations of a packet -/

@[simp] theorem advance_withInput (s : State) (l : List PortIn) :
    advance (s.withInput l) = (advance s).withInput l := rfl

@[simp] theorem statusHeader_withInput (s : State) (l : List PortIn) :
    statusHeader (s.withInput l) = (statusHeader s).withInput l := rfl

@[simp] theorem statusPayload_withInput (b : Byte) (s : State) (l : List PortIn) :
    statusPayload b (s.withInput l) = (statusPayload b s).withInput l := by
  simp only [statusPayload, SubResult.withInput_ite]
  rfl

@[simp] theorem statusTerm_withInput (b : Byte) (s : State) (l : List PortIn) :
    statusTerm b (s.withInput l) = (statusTerm b s).withInput l := by
  simp only [statusTerm, SubResult.withInput_ite]
  rfl

@[simp] theorem statusOverrun_withInput (s : State) (l : List PortIn) :
    statusOverrun (s.withInput l) = (statusOverrun s).withInput l := rfl

@[simp] theorem dataHeader_withInput (b : Byte) (s : State) (l : List PortIn) :
    dataHeader b (s.withInput l) = (dataHeader b s).withInput l := by
  simp only [dataHeader, SubResult.withInput_ite]
  rfl

@[simp] theorem dataPayload_withInput (b : Byte) (s : State) (l : List PortIn) :
    dataPayload b (s.withInput l) = (dataPayload b s).withInput l := statusPayload_withInput b s l

@[simp] theorem dataTerm_withInput (b : Byte) (s : State) (l : List PortIn) :
    dataTerm b (s.withInput l) = (dataTerm b s).withInput l := statusTerm_withInput b s l

@[simp] theorem dataOverrun_withInput (s : State) (l : List PortIn) :
    dataOverrun (s.withInput l) = (dataOverrun s).withInput l := rfl

/-- A sub-decoder's answer depends on no later input, whatever the byte and the position. -/
theorem delegate_withInput (sub : SubDecoder) (b : Byte) (s : State) (l : List PortIn) :
    delegate sub b (s.withInput l) = (delegate sub b s).withInput l := by
  cases sub with
  | status =>
    simp only [delegate, statusFeed, advance_withInput, statusHeader_withInput, statusPayload_withInput,
      statusTerm_withInput, statusOverrun_withInput, SubResult.withInput_ite]
    rfl
  | none | data =>
    simp only [delegate, dataFeed, advance_withInput, dataHeader_withInput, dataPayload_withInput,
      dataTerm_withInput, dataOverrun_withInput, SubResult.withInput_ite]
    rfl

theorem conclude_withInput (sub : SubDecoder) (te : Time) (r : SubResult) (l : List PortIn) :
    conclude sub te (r.withInput l) = (conclude sub te r).withInput l := by
  obtain ⟨regs, err, complete⟩ := r
  cases err <;> cases complete <;> rfl

theorem packetFeed_withInput (b : Byte) (te : Time) (s : State) (l : List PortIn) :
    packetFeed b te (s.withInput l) = (packetFeed b te s).withInput l := by
  rw [packetFeed, delegate_withInput, conclude_withInput]
  rfl

theorem dataHeaderLabel_withInput (f : BitVec 3) (l : BitVec 4) (te : Time) (s : State) (later : List PortIn) :
    dataHeaderLabel f l te (s.withInput later) = (dataHeaderLabel f l te s).withInput later := by
  simp only [dataHeaderLabel, State.withInput_ite]
  rfl

/-! ## The rows and the step -/

/-- The end of every arm of `exec` that is guarded by the row's condition: no condition reads the input to come. -/
theorem runRow_withInput {i : Instr} {s t u t' : State} {l : List PortIn} (h : runRow i s t = .next u)
    (ht : t' = t.withInput l) : runRow i (s.withInput l) t' = .next (u.withInput l) := by
  obtain ⟨hsel, rfl⟩ := runRow_eq_next h
  rw [ht]
  exact runRow_of_selected _ hsel

theorem execByteIn_withInput {b : Byte} {ts te : Time} {s t : State} (h : execByteIn b ts te s = .next t)
    (l : List PortIn) : execByteIn b ts te (s.withInput l) = .next (t.withInput l) := by
  have same_ctrl : (s.withInput l).ctrl = s.ctrl := rfl
  simp only [execByteIn, same_ctrl, packetFeed_withInput] at h ⊢
  split_ifs at h ⊢ <;> cases h <;> rfl

/-- One lemma for all 58 rows: a row does the same whatever input is yet to come. -/
theorem exec_withInput {i : Instr} {s t : State} (h : exec i s = .next t) (l : List PortIn) :
    exec i (s.withInput l) = .next (t.withInput l) := by
  cases i with
  | byteIn b ts te => exact execByteIn_withInput h l
  | fs01 | fs02 | fs03 | fs05 | noInput | reset => cases h; rfl
  | forward b te => exact runRow_withInput h (packetFeed_withInput b te s l)
  | hdrDataF0 label te | hdrDataF1 label te | hdrDataF2 label te | hdrDataF3 label te | hdrDataF4 label te
  | hdrDataF5 label te => exact runRow_withInput h (dataHeaderLabel_withInput _ label te s l)
  | _ => exact runRow_withInput h rfl

/-- Settles O47: the head alone decides the row and is taken with the step, and the row does not read what follows. -/
theorem stepDependsOnNoLaterInput : Obligations.StepDependsOnNoLaterInput :=
  fun _ _ _ _ later' h => exec_withInput h later'

end Sys2Proof.Machine
end

section
/-! PROOFS. The decode map: the byte classes and bit-fields, how each context reads a byte, and that decoding inverts
encoding. -/

namespace Sys2Proof.Machine

/-! ## The hex alphabet and the header byte -/

/-- A byte of the alphabet is the character of its own value (R50). -/
theorem hexChar_nib {b : Byte} (h : isHex b = true) : hexChar (nib b) = b := by revert b; decide

/-- The alphabet as byte ranges (R50). -/
theorem isHex_iff_toNat (b : Byte) :
    isHex b = true ↔ (0x30 ≤ b.toNat ∧ b.toNat ≤ 0x39) ∨ (0x41 ≤ b.toNat ∧ b.toNat ≤ 0x46) := by
  simp [isHex, BitVec.le_def]

/-- Settles O17: a character and its value determine each other, and `isHex` compares with the ends of the ranges. -/
theorem hexAlphabetIsTheSixteenCharacters : Obligations.HexAlphabetIsTheSixteenCharacters :=
  ⟨fun n => ⟨isHex_hexChar n, nib_hexChar n⟩, fun _ => hexChar_nib, isHex_iff_toNat⟩

theorem markerBit_iff_mask (b : Byte) : markerBit b = true ↔ b &&& 0x80 = 0x80 := by revert b; decide

theorem flagCode_setWidth (b : Byte) : (flagCode b).setWidth 8 = (b &&& 0x70) >>> 4 := by revert b; decide

theorem labelCode_setWidth (b : Byte) : (labelCode b).setWidth 8 = b &&& 0x0F := by revert b; decide

/-- The legal masked flag values (R55). -/
theorem flagCode_le_iff_mask (b : Byte) :
    flagCode b ≤ 5#3 ↔ b &&& 0x70 ∈ ([0x00, 0x10, 0x20, 0x30, 0x40, 0x50] : List Byte) := by
  revert b; decide

/-- Settles O18, field by field. -/
theorem headerFieldsAreTheirMasks : Obligations.HeaderFieldsAreTheirMasks :=
  fun b => ⟨markerBit_iff_mask b, flagCode_setWidth b, labelCode_setWidth b, flagCode_le_iff_mask b⟩

theorem markerBit_setWidth (low : BitVec 7) : markerBit (low.setWidth 8) = false := by revert low; decide

theorem lowBits_of_setWidth (low : BitVec 7) : lowBits (low.setWidth 8) = low := by revert low; decide

/-- A byte with bit 7 clear is never the status signature. -/
theorem recognize_of_not_markerBit (p : Params) (cat : Byte) {b : Byte} (h : markerBit b = false) :
    recognize p cat b = false := by
  refine Bool.eq_false_iff.2 fun hr => ?_
  rw [(recognize_eq_true.1 hr).2, markerBit_statusHdr] at h
  cases h

/-- Under another category than STATUS_SOH no byte is the status signature (R57). -/
theorem recognize_of_cat_ne {p : Params} {cat : Byte} (h : cat ≠ p.statusSoh) (b : Byte) :
    recognize p cat b = false :=
  Bool.eq_false_iff.2 fun hr => h (recognize_eq_true.1 hr).1

/-! ## The header position -/

theorem decodeHeader_statusHdr (p : Params) (te : Time) :
    decodeHeader p p.statusSoh (statusHdr p) te = .hdrStatus te :=
  if_pos (recognize_eq_true.2 ⟨rfl, rfl⟩)

theorem decodeHeader_setWidth (p : Params) (cat : Byte) (low : BitVec 7) (te : Time) :
    decodeHeader p cat (low.setWidth 8) te = .hdrNomarker low te := by
  have hm := markerBit_setWidth low
  simp [decodeHeader, recognize_of_not_markerBit p cat hm, hm, lowBits_of_setWidth]

/-- A header byte with marker set is read by its flag code, where it is not the status signature. -/
theorem decodeHeader_headerByte {p : Params} {cat : Byte} {f : BitVec 3} {l : BitVec 4} (te : Time)
    (hr : recognize p cat (headerByte f l) = false) :
    decodeHeader p cat (headerByte f l) te =
      if Config.maxFlag < f then .hdrBadflag f l te else dataHeaderRow f l te := by
  simp [decodeHeader, hr, markerBit_headerByte, flagCode_headerByte, labelCode_headerByte]

/-! ## The positions after the header -/

theorem decodeStatus_payload {pos : BitVec 4} (h1 : 1#4 ≤ pos) (h4 : pos ≤ 4#4) (b : Byte) (te : Time) :
    decodeStatus pos b te = if isHex b then statusHexRow (nib b) te else .sPayloadNonhex b te := by
  have h0 : pos ≠ 0#4 := by bv_omega
  simp [decodeStatus, h0, h4]

theorem decodeStatus_overrun {pos : BitVec 4} (h : 6#4 ≤ pos) (b : Byte) (te : Time) :
    decodeStatus pos b te = .sOverrun b te := by
  have h0 : pos ≠ 0#4 := by bv_omega
  have h4 : ¬ pos ≤ 4#4 := by bv_omega
  have h5 : pos ≠ 5#4 := by bv_omega
  simp only [decodeStatus, h0, h4, h5, if_false]

theorem decodeData_payload {pos : BitVec 4} (h1 : 1#4 ≤ pos) (h8 : pos ≤ 8#4) (b : Byte) (te : Time) :
    decodeData pos b te = if isHex b then dataHexRow (nib b) te else .dPayloadNonhex b te := by
  have h0 : pos ≠ 0#4 := by bv_omega
  simp [decodeData, h0, h8]

theorem decodeData_overrun {pos : BitVec 4} (h : 10#4 ≤ pos) (b : Byte) (te : Time) :
    decodeData pos b te = .dOverrun b te := by
  have h0 : pos ≠ 0#4 := by bv_omega
  have h8 : ¬ pos ≤ 8#4 := by bv_omega
  have h9 : pos ≠ 9#4 := by bv_omega
  simp only [decodeData, h0, h8, h9, if_false]

/-! ## The whole decoder in each context of an open packet -/

section
variable (p : Params) {c : Context} (b : Byte) (te : Time)

theorem decodePacket_of_sub_none (h : c.sub = .none) : decodePacket p c b te = decodeHeader p c.cat b te := by
  rw [decodePacket, h]

theorem decodePacket_of_sub_status (h : c.sub = .status) : decodePacket p c b te = decodeStatus c.pos b te := by
  rw [decodePacket, h]

theorem decodePacket_of_sub_data (h : c.sub = .data) : decodePacket p c b te = decodeData c.pos b te := by
  rw [decodePacket, h]

end

section
variable (p : Params) {c : Context} {b : Byte} (ts te : Time)

theorem decode_atHeader (h : c.atHeader = true) (hc : isCat b = false) :
    decode p c (byteRecord b ts te) = decodeHeader p c.cat b te := by
  obtain ⟨ho, hs⟩ : c.ctrl = .opened ∧ c.sub = .none := by simpa [Context.atHeader] using h
  rw [decode_opened p ts te hc ho, decodePacket_of_sub_none _ _ _ hs]

/-- A data header, in the contexts in which the byte is not the status signature. -/
theorem decode_atDataHeader {f : BitVec 3} {l : BitVec 4} (h : c.atDataHeader p f l = true) :
    decode p c (byteRecord (headerByte f l) ts te) =
      if Config.maxFlag < f then .hdrBadflag f l te else dataHeaderRow f l te := by
  obtain ⟨hctx, hr⟩ : c.atHeader = true ∧ recognize p c.cat (headerByte f l) = false := by
    simpa [Context.atDataHeader] using h
  rw [decode_atHeader p ts te hctx (isCat_of_markerBit (markerBit_headerByte f l)), decodeHeader_headerByte te hr]

theorem decode_atStatusPayload (h : c.atStatusPayload = true) (hc : isCat b = false) :
    decode p c (byteRecord b ts te) = if isHex b then statusHexRow (nib b) te else .sPayloadNonhex b te := by
  obtain ⟨ho, hs, h1, h4⟩ : c.ctrl = .opened ∧ c.sub = .status ∧ 1#4 ≤ c.pos ∧ c.pos ≤ 4#4 := by
    simpa only [Context.atStatusPayload, Bool.and_eq_true, beq_iff_eq, decide_eq_true_eq, and_assoc] using h
  rw [decode_opened p ts te hc ho, decodePacket_of_sub_status _ _ _ hs]
  exact decodeStatus_payload h1 h4 b te

theorem decode_atStatusTerm (h : c.atStatusTerm = true) (hc : isCat b = false) :
    decode p c (byteRecord b ts te) = if b = Config.cr then .sTermCr te else .sTermOther b te := by
  obtain ⟨ho, hs, h5⟩ : c.ctrl = .opened ∧ c.sub = .status ∧ c.pos = 5#4 := by
    simpa only [Context.atStatusTerm, Bool.and_eq_true, beq_iff_eq, and_assoc] using h
  rw [decode_opened p ts te hc ho, decodePacket_of_sub_status _ _ _ hs, h5]
  rfl

theorem decode_atStatusOverrun (h : c.atStatusOverrun = true) (hc : isCat b = false) :
    decode p c (byteRecord b ts te) = .sOverrun b te := by
  obtain ⟨ho, hs, h6⟩ : c.ctrl = .opened ∧ c.sub = .status ∧ 6#4 ≤ c.pos := by
    simpa only [Context.atStatusOverrun, Bool.and_eq_true, beq_iff_eq, decide_eq_true_eq, and_assoc] using h
  rw [decode_opened p ts te hc ho, decodePacket_of_sub_status _ _ _ hs]
  exact decodeStatus_overrun h6 b te

theorem decode_atDataPayload (h : c.atDataPayload = true) (hc : isCat b = false) :
    decode p c (byteRecord b ts te) = if isHex b then dataHexRow (nib b) te else .dPayloadNonhex b te := by
  obtain ⟨ho, hs, h1, h8⟩ : c.ctrl = .opened ∧ c.sub = .data ∧ 1#4 ≤ c.pos ∧ c.pos ≤ 8#4 := by
    simpa only [Context.atDataPayload, Bool.and_eq_true, beq_iff_eq, decide_eq_true_eq, and_assoc] using h
  rw [decode_opened p ts te hc ho, decodePacket_of_sub_data _ _ _ hs]
  exact decodeData_payload h1 h8 b te

theorem decode_atDataTerm (h : c.atDataTerm = true) (hc : isCat b = false) :
    decode p c (byteRecord b ts te) = if b = Config.cr then .dTermCr te else .dTermOther b te := by
  obtain ⟨ho, hs, h9⟩ : c.ctrl = .opened ∧ c.sub = .data ∧ c.pos = 9#4 := by
    simpa only [Context.atDataTerm, Bool.and_eq_true, beq_iff_eq, and_assoc] using h
  rw [decode_opened p ts te hc ho, decodePacket_of_sub_data _ _ _ hs, h9]
  rfl

theorem decode_atDataOverrun (h : c.atDataOverrun = true) (hc : isCat b = false) :
    decode p c (byteRecord b ts te) = .dOverrun b te := by
  obtain ⟨ho, hs, h10⟩ : c.ctrl = .opened ∧ c.sub = .data ∧ 10#4 ≤ c.pos := by
    simpa only [Context.atDataOverrun, Bool.and_eq_true, beq_iff_eq, decide_eq_true_eq, and_assoc] using h
  rw [decode_opened p ts te hc ho, decodePacket_of_sub_data _ _ _ hs]
  exact decodeData_overrun h10 b te

end

/-! ## Decode inverts encode -/

theorem wellFormed_nonhex {b : Byte} (h : (!isCat b && !isHex b) = true) : isCat b = false ∧ ¬ isHex b = true := by
  simpa using h

theorem wellFormed_termOther {b : Byte} (h : (!isCat b && b != Config.cr) = true) :
    isCat b = false ∧ b ≠ Config.cr := by
  simpa using h

/-- The whole decoder reads every selected row back, but the two that stand for every row a byte may be read by. -/
theorem decode_encode {p : Params} {c : Context} {i : Instr} (hu : isUmbrella i = false) (hw : wellFormed i = true)
    (hc : inContext p c i = true) : decode p c (encode p i) = i := by
  cases i with
  | byteIn | forward => cases hu
  | reset | noInput => rfl
  | fs01 ts | fs02 ts | fs03 ts | fs05 ts => exact decode_frameStart p c ts ts rfl
  | idleDrop b => exact decode_idle p 0 0 (by simpa [wellFormed] using hw) (by simpa [inContext] using hc)
  | hdrStatus te =>
    obtain ⟨hctx, hcat⟩ : c.atHeader = true ∧ c.cat = p.statusSoh := by simpa [inContext] using hc
    exact (decode_atHeader p te te hctx (isCat_of_markerBit (markerBit_statusHdr p))).trans
      (hcat ▸ decodeHeader_statusHdr p te)
  | hdrNomarker low te =>
    exact (decode_atHeader p te te hc (by simpa [wellFormed] using hw)).trans (decodeHeader_setWidth p c.cat low te)
  | hdrDataF0 l te | hdrDataF1 l te | hdrDataF2 l te | hdrDataF3 l te | hdrDataF4 l te | hdrDataF5 l te =>
    exact decode_atDataHeader p te te hc
  | hdrBadflag f l te => exact (decode_atDataHeader p te te hc).trans (if_pos (of_decide_eq_true hw))
  | sHex0 te | sHex1 te | sHex2 te | sHex3 te | sHex4 te | sHex5 te | sHex6 te | sHex7 te
  | sHex8 te | sHex9 te | sHexA te | sHexB te | sHexC te | sHexD te | sHexE te | sHexF te =>
    exact decode_atStatusPayload p te te hc rfl
  | sPayloadNonhex b te =>
    obtain ⟨hcat, hx⟩ := wellFormed_nonhex hw
    exact (decode_atStatusPayload p te te hc hcat).trans (if_neg hx)
  | sTermCr te => exact decode_atStatusTerm p te te hc isCat_cr
  | sTermOther b te =>
    obtain ⟨hcat, hcr⟩ := wellFormed_termOther hw
    exact (decode_atStatusTerm p te te hc hcat).trans (if_neg hcr)
  | sOverrun b te => exact decode_atStatusOverrun p te te hc (by simpa [wellFormed] using hw)
  | dHex0 te | dHex1 te | dHex2 te | dHex3 te | dHex4 te | dHex5 te | dHex6 te | dHex7 te
  | dHex8 te | dHex9 te | dHexA te | dHexB te | dHexC te | dHexD te | dHexE te | dHexF te =>
    exact decode_atDataPayload p te te hc rfl
  | dPayloadNonhex b te =>
    obtain ⟨hcat, hx⟩ := wellFormed_nonhex hw
    exact (decode_atDataPayload p te te hc hcat).trans (if_neg hx)
  | dTermCr te => exact decode_atDataTerm p te te hc isCat_cr
  | dTermOther b te =>
    obtain ⟨hcat, hcr⟩ := wellFormed_termOther hw
    exact (decode_atDataTerm p te te hc hcat).trans (if_neg hcr)
  | dOverrun b te => exact decode_atDataOverrun p te te hc (by simpa [wellFormed] using hw)

/-- A byte that starts no frame goes to the open packet (R66). -/
theorem decodeStream_opened {c : Context} {b : Byte} (ts te : Time) (ho : c.ctrl = .opened) (hc : isCat b = false) :
    decodeStream c b ts te = .forward b te := by
  simp [decodeStream, hc, ho]

/-- Settles O27, row by row in `decode_encode`; BYTE_IN and FORWARD at their own levels. -/
theorem decodeInvertsEncode : Obligations.DecodeInvertsEncode := by
  intro p c i h
  obtain ⟨hw, hc⟩ : wellFormed i = true ∧ inContext p c i = true := by simpa [selected] using h
  cases i with
  | byteIn b ts te => rfl
  | forward b te =>
    have hcat : isCat b = false := by simpa [wellFormed] using hw
    exact decodeStream_opened te te (by simpa [inContext] using hc) hcat
  | _ => exact decode_encode rfl hw hc

/-- Settles O26: the header words by the fields of the byte, the others by evaluation of the named context. -/
theorem writtenOutWordsDecode : Obligations.WrittenOutWordsDecode := by
  intro p hsoh hlabel
  have hdr : statusHdr p = 0x8F := by rw [statusHdr, hlabel]; decide
  have signature : decodeHeader p 0x01 0x8F 8 = .hdrStatus 8 := hsoh ▸ hdr ▸ decodeHeader_statusHdr p 8
  have other (f : BitVec 3) (l : BitVec 4) : (⟨.opened, 0x02, .none, 0⟩ : Context).atDataHeader p f l = true := by
    simp [Context.atDataHeader, Context.atHeader, recognize_of_cat_ne, hsoh]
  exact ⟨rfl, rfl, signature, decode_atDataHeader p 7 8 (other 0 0xF), decode_atDataHeader p 7 8 (other 5 0x2),
    decode_atDataHeader p 7 8 (other 6 0x3), rfl, rfl, rfl, rfl⟩

end Sys2Proof.Machine
end

section
/-! PROOFS. The rows the decoder reads: a row runs exactly where it is selected, every input is read as a selected row, and
the rows do what the pseudocode says. -/

namespace Sys2Proof.Machine

/-! ## Where a row runs -/

/-- One lemma for all 58 rows: a row takes the state to some next state under its condition, and stops by name
elsewhere. The rows that are always selected have a condition that is always true. -/
theorem exec_eq_runRow (i : Instr) (s : State) : ∃ t, exec i s = runRow i s t := by
  cases i with
  | byteIn b ts te =>
    rw [exec, execByteIn]
    split_ifs
    · exact ⟨openPacket b ts s, rfl⟩
    · exact ⟨noOutput s, rfl⟩
    · exact ⟨packetFeed b te s, rfl⟩
  | _ => exact ⟨_, rfl⟩

theorem runRow_of_not_selected {i : Instr} {s : State} (t : State) (h : selected s.params s.context i = false) :
    runRow i s t = .fault .rowNotSelected := by
  simp [runRow, h]

/-- Settles O29: every row is `runRow` of some state. -/
theorem rowRunsExactlyWhereSelected : Obligations.RowRunsExactlyWhereSelected := by
  intro i s
  obtain ⟨t, ht⟩ := exec_eq_runRow i s
  exact ⟨fun h => ⟨t, ht.trans (runRow_of_selected t h)⟩, fun h => ht.trans (runRow_of_not_selected t h)⟩

/-- A row that completes is one that is selected. -/
theorem selected_of_exec_eq_next {i : Instr} {s t : State} (h : exec i s = .next t) :
    selected s.params s.context i = true := by
  obtain ⟨u, hu⟩ := exec_eq_runRow i s
  exact (runRow_eq_next (hu.symm.trans h)).1

/-! ## Every input reads as a selected row -/

/-- A state with this configuration, in this context, with these values at the input ports. -/
def stateReading (p : Params) (c : Context) (r : PortIn) : State :=
  { State.reset with params := p, ctrl := c.ctrl, cat := c.cat, sub := c.sub, pos := c.pos, input := [r] }

theorem stateReading_row (p : Params) (c : Context) (r : PortIn) : (stateReading p c r).row = decode p c r := rfl

/-- The row a step runs is selected, since no step stops. -/
theorem selected_decode (p : Params) (c : Context) (r : PortIn) : selected p c (decode p c r) = true := by
  obtain ⟨t, ht, -⟩ := exists_step_stepKind (stateReading p c r)
  rw [step, stateReading_row] at ht
  exact selected_of_exec_eq_next ht

theorem encodeByte_frameStartRow (p : Params) {b : Byte} (h : isCat b = true) (ts : Time) :
    encodeByte p (frameStartRow b ts) = some b := by
  rcases isCat_eq_true.1 h with rfl | rfl | rfl | rfl <;> rfl

section
variable (p : Params) (c : Context) (b : Byte) (te : Time)

theorem encodeByte_decodeHeader : encodeByte p (decodeHeader p c.cat b te) = some b := by
  unfold decodeHeader
  split_ifs with hr hm hf
  · exact congrArg some (recognize_eq_true.1 hr).2.symm
  · exact congrArg some (lowBits_setWidth (by simpa using hm))
  · exact congrArg some (headerByte_of_markerBit (by simpa using hm))
  · rw [(selected_dataHeaderRow p c (BitVec.not_lt.1 hf) _ te).2, headerByte_of_markerBit (by simpa using hm)]

theorem encodeByte_decodeStatus : encodeByte p (decodeStatus c.pos b te) = some b := by
  unfold decodeStatus
  split_ifs with h0 h4 hx h5 hcr
  · rfl
  · rw [(selected_statusHexRow p c (nib b) te).2, hexChar_nib hx]
  · rfl
  · exact congrArg some hcr.symm
  · rfl
  · rfl

theorem encodeByte_decodeData : encodeByte p (decodeData c.pos b te) = some b := by
  unfold decodeData
  split_ifs with h0 h8 hx h9 hcr
  · rfl
  · rw [(selected_dataHexRow p c (nib b) te).2, hexChar_nib hx]
  · rfl
  · exact congrArg some hcr.symm
  · rfl
  · rfl

theorem encodeByte_decodePacket : encodeByte p (decodePacket p c b te) = some b := by
  unfold decodePacket
  split
  · exact encodeByte_decodeHeader p c b te
  · exact encodeByte_decodeStatus p c b te
  · exact encodeByte_decodeData p c b te

end

/-- The row of a presented byte stands for that byte, at every level. -/
theorem encodeByte_decode_byteRecord (p : Params) (c : Context) (b : Byte) (ts te : Time) :
    encodeByte p (decode p c (byteRecord b ts te)) = some b := by
  cases hc : isCat b
  · cases ho : c.ctrl
    · rw [decode_idle p ts te hc ho, encodeByte]
    · rw [decode_opened p ts te hc ho, encodeByte_decodePacket]
  · rw [decode_frameStart p c ts te hc, encodeByte_frameStartRow p hc]

theorem decode_of_rst (p : Params) (c : Context) {r : PortIn} (h : r.rst = true) : decode p c r = .reset := by
  simp [decode, decodePort, h]

theorem decode_of_isGap (p : Params) (c : Context) {r : PortIn} (h : isGap r = true) : decode p c r = .noInput := by
  obtain ⟨hrst, hvalid⟩ : r.rst = false ∧ r.inValid = false := by simpa [isGap] using h
  simp [decode, decodePort, hrst, hvalid]

/-- Settles O28: the row is selected because the step that runs it completes, and its byte is read back level by level. -/
theorem everyInputReadsAsASelectedRow : Obligations.EveryInputReadsAsASelectedRow := by
  intro p c r
  refine ⟨selected_decode p c r, fun h => ?_, decode_of_rst p c, decode_of_isGap p c⟩
  rw [eq_byteRecord_of_isByte h]
  exact encodeByte_decode_byteRecord p c _ _ _

/-! ## The rows do what the pseudocode says -/

theorem exec_forward {s : State} {b : Byte} (te : Time) (ho : s.ctrl = .opened) (hc : isCat b = false) :
    exec (.forward b te) s = .next (packetFeed b te s) :=
  runRow_of_selected _ (by simp [selected, wellFormed, inContext, ho, hc])

theorem exec_idleDrop {s : State} {b : Byte} (hi : s.ctrl = .idle) (hc : isCat b = false) :
    exec (.idleDrop b) s = .next (noOutput s) :=
  runRow_of_selected _ (by simp [selected, wellFormed, inContext, hi, hc])

/-- Settles O30: R63's three branches on a presented byte are the three rows of the stream level. -/
theorem streamRowsAgreeWithByteIn : Obligations.StreamRowsAgreeWithByteIn := by
  intro s b ts te
  change _ = execByteIn b ts te s
  cases hc : isCat b
  · cases ho : s.ctrl
    · have row : decodeStream s.context b ts te = .idleDrop b := by simp [decodeStream, State.context, hc, ho]
      rw [row, exec_idleDrop ho hc]
      simp [execByteIn, hc, ho]
    · rw [decodeStream_opened ts te ho hc, exec_forward te ho hc]
      simp [execByteIn, hc, ho]
  · rw [decodeStream, if_pos hc, exec_frameStartRow hc]
    simp [execByteIn, hc]

theorem exec_statusHexRow_eq_runRow (n : BitVec 4) (te : Time) (s : State) :
    exec (statusHexRow n te) s = runRow (statusHexRow n te) s (statusNibble n te s) := by
  rw [exec_statusHexRow, runRow, (selected_statusHexRow s.params s.context n te).1]

theorem exec_dataHexRow_eq_runRow (n : BitVec 4) (te : Time) (s : State) :
    exec (dataHexRow n te) s = runRow (dataHexRow n te) s (dataNibble n te s) := by
  rw [exec_dataHexRow, runRow, (selected_dataHexRow s.params s.context n te).1]

/-! ### The sub-decoders by the position before the byte -/

theorem statusPayload_of_isHex {b : Byte} (h : isHex b = true) (s : State) :
    statusPayload b s = goOn (shiftNibble (nib b) s) := by
  simp [statusPayload, h]

theorem statusPayload_of_not_isHex {b : Byte} (h : ¬ isHex b = true) (s : State) :
    statusPayload b s = raiseErr .nonHexPayloadByte s := by
  simp [statusPayload, h]

theorem statusTerm_of_cr {b : Byte} (h : b = Config.cr) (s : State) : statusTerm b s = completed s := by
  simp [statusTerm, h]

theorem statusTerm_of_ne_cr {b : Byte} (h : b ≠ Config.cr) (s : State) :
    statusTerm b s = raiseErr .wrongFrameLength s :=
  if_pos h

/-- `status_feed` as a choice on the position before it is advanced (R78); from 6 on the byte is an overrun, also where
the advanced position wraps to 0. -/
theorem statusFeed_eq (b : Byte) (s : State) :
    statusFeed b s =
      if s.pos = 0#4 then statusHeader (advance s)
      else if s.pos ≤ 4#4 then statusPayload b (advance s)
      else if s.pos = 5#4 then statusTerm b (advance s)
      else statusOverrun (advance s) := by
  have header : s.pos + 1#4 = 1#4 ↔ s.pos = 0#4 := by bv_omega
  have term : s.pos + 1#4 = 6#4 ↔ s.pos = 5#4 := by bv_omega
  by_cases h0 : s.pos = 0#4
  · simp [statusFeed, h0]
  · have payload : (2#4 ≤ s.pos + 1#4 ∧ s.pos + 1#4 ≤ 5#4) ↔ s.pos ≤ 4#4 := by bv_omega
    simp only [statusFeed, advance_pos, header, payload, term]

/-- `data_feed` as a choice on the position before it is advanced (R84). -/
theorem dataFeed_eq (b : Byte) (s : State) :
    dataFeed b s =
      if s.pos = 0#4 then dataHeader b (advance s)
      else if s.pos ≤ 8#4 then dataPayload b (advance s)
      else if s.pos = 9#4 then dataTerm b (advance s)
      else dataOverrun (advance s) := by
  have header : s.pos + 1#4 = 1#4 ↔ s.pos = 0#4 := by bv_omega
  have term : s.pos + 1#4 = 10#4 ↔ s.pos = 9#4 := by bv_omega
  by_cases h0 : s.pos = 0#4
  · simp [dataFeed, h0]
  · have payload : (2#4 ≤ s.pos + 1#4 ∧ s.pos + 1#4 ≤ 9#4) ↔ s.pos ≤ 8#4 := by bv_omega
    simp only [dataFeed, advance_pos, header, payload, term]

/-! ### The rows of each packet context -/

section
variable {s : State} {b : Byte} (te : Time)

theorem exec_decodeStatus_eq_runRow (hs : s.sub = .status) :
    exec (decodeStatus s.pos b te) s = runRow (decodeStatus s.pos b te) s (packetFeed b te s) := by
  have feed : packetFeed b te s = conclude .status te (statusFeed b s) := by simp [packetFeed, hs, delegate]
  rw [statusFeed_eq] at feed
  unfold decodeStatus
  split_ifs at feed ⊢ with h0 h4 hx h5 hcr
  · rfl
  · rw [feed, statusPayload_of_isHex hx]
    exact exec_statusHexRow_eq_runRow (nib b) te s
  · rw [feed, statusPayload_of_not_isHex hx]
    rfl
  · rw [feed, statusTerm_of_cr hcr]
    rfl
  · rw [feed, statusTerm_of_ne_cr hcr]
    rfl
  · rw [feed]
    rfl

theorem exec_decodeData_eq_runRow (hs : s.sub = .data) :
    exec (decodeData s.pos b te) s = runRow (decodeData s.pos b te) s (packetFeed b te s) := by
  have feed : packetFeed b te s = conclude .data te (dataFeed b s) := by simp [packetFeed, hs, delegate]
  rw [dataFeed_eq] at feed
  unfold decodeData
  split_ifs at feed ⊢ with h0 h8 hx h9 hcr
  · rfl
  · rw [feed, dataPayload, ← statusPayload, statusPayload_of_isHex hx]
    exact exec_dataHexRow_eq_runRow (nib b) te s
  · rw [feed, dataPayload, ← statusPayload, statusPayload_of_not_isHex hx]
    rfl
  · rw [feed, dataTerm, ← statusTerm, statusTerm_of_cr hcr]
    rfl
  · rw [feed, dataTerm, ← statusTerm, statusTerm_of_ne_cr hcr]
    rfl
  · rw [feed]
    rfl

/-- At the header position the signature byte selects the status decoder, and every other byte the data decoder
(R72, R77). -/
theorem exec_decodeHeader (ho : s.ctrl = .opened) (hs : s.sub = .none) (hpos : s.pos = 0#4) (hc : isCat b = false) :
    exec (decodeHeader s.params s.cat b te) s = .next (packetFeed b te s) := by
  cases hr : recognize s.params s.cat b
  · rw [exec_decodeHeader_data te ho hs hc hr]
    simp [packetFeed, hs, classify, hr, delegate, dataFeed_eq, hpos]
  · have hcat := (recognize_eq_true.1 hr).1
    rw [decodeHeader, if_pos hr]
    refine (runRow_of_selected _ (by simp [selected, wellFormed, inContext, Context.atHeader, ho, hs, hcat])).trans ?_
    simp [packetFeed, hs, classify, hr, delegate, statusFeed_eq, hpos, statusHeader]

end

theorem selected_decodePacket {s : State} {b : Byte} (te : Time) (ho : s.ctrl = .opened) (hc : isCat b = false) :
    selected s.params s.context (decodePacket s.params s.context b te) = true := by
  rw [← decode_opened s.params te te hc ho]
  exact selected_decode _ _ _

/-- Settles O31, context by context. -/
theorem packetRowsAgreeWithForward : Obligations.PacketRowsAgreeWithForward := by
  intro s b te ho hc hpos
  have hsel := selected_decodePacket te ho hc
  rw [exec_forward te ho hc]
  cases hs : s.sub with
  | none =>
    have row : decodePacket s.params s.context b te = decodeHeader s.params s.cat b te :=
      decodePacket_of_sub_none s.params b te hs
    rw [row, exec_decodeHeader te ho hs (hpos hs) hc]
  | status =>
    have row : decodePacket s.params s.context b te = decodeStatus s.pos b te :=
      decodePacket_of_sub_status s.params b te hs
    rw [row] at hsel ⊢
    rw [exec_decodeStatus_eq_runRow te hs, runRow_of_selected _ hsel]
  | data =>
    have row : decodePacket s.params s.context b te = decodeData s.pos b te :=
      decodePacket_of_sub_data s.params b te hs
    rw [row] at hsel ⊢
    rw [exec_decodeData_eq_runRow te hs, runRow_of_selected _ hsel]

end Sys2Proof.Machine
end

section
/-! PROOFS. The Stream Controller: the rows of the ports and stream levels, the step against the top-level pseudocode,
the step in which a record leaves, and the gaps in the input. -/

namespace Sys2Proof.Machine

/-! ## The step and its input -/

theorem State.takeInput_of_cons {s : State} {r : PortIn} {rest : List PortIn} (h : s.input = r :: rest) :
    s.takeInput = { s with input := rest } := by
  simp [State.takeInput, h]

theorem State.takeInput_of_nil {s : State} (h : s.input = []) : s.takeInput = s := by
  obtain ⟨⟩ := s
  cases h
  rfl

/-- Settles O25: past the end of the input, `noRecord` is read as NO_INPUT. -/
theorem stepRunsTheDecodedRow : Obligations.StepRunsTheDecodedRow := by
  refine ⟨fun s r rest h => ?_, fun s h => ?_⟩
  · rw [step, State.row, State.ports_of_cons h, State.takeInput_of_cons h]
  · rw [step, State.row, State.ports_of_nil h, State.takeInput_of_nil h, decode_of_isGap _ _ rfl]

/-- Settles O33: every step is of one of the five kinds. -/
theorem stepNeverStops : Obligations.StepNeverStops := by
  intro s
  obtain ⟨t, ht, -⟩ := exists_step_stepKind s
  exact ⟨t, ht⟩

/-! ## The rows of the ports and stream levels -/

/-- The frame-start rows are those the decoder makes from the bytes of CATS (R59 row 1). -/
theorem eq_frameStartRow_of_mem {row : (Time → Instr) × Byte} (h : row ∈ frameStartRows) :
    row.1 = frameStartRow row.2 ∧ isCat row.2 = true := by
  simp only [frameStartRows, List.mem_cons, List.not_mem_nil, or_false] at h
  rcases h with rfl | rfl | rfl | rfl <;> exact ⟨rfl, rfl⟩

/-- Settles O3: each row is `openPacket` of its byte, and the decoder reads the byte as that row in every context. -/
theorem frameStartOpensANewPacket : Obligations.FrameStartOpensANewPacket := by
  intro row hmem s ts te
  obtain ⟨hrow, hc⟩ := eq_frameStartRow_of_mem hmem
  refine ⟨?_, fun rest h => ?_⟩
  · rw [hrow, exec_frameStartRow hc]
    rfl
  · rw [stepRunsTheDecodedRow.1 s _ rest h, decode_frameStart _ _ ts te hc, exec_frameStartRow hc]
    rfl

/-- Settles O4: the decoder reads the byte as IDLE_DROP, which is `noOutput`. -/
theorem idleByteIsDropped : Obligations.IdleByteIsDropped := by
  intro s b hi hc
  refine ⟨exec_idleDrop hi hc, fun ts te rest h => ?_⟩
  rw [stepRunsTheDecodedRow.1 s _ rest h, decode_idle _ ts te hc hi]
  exact exec_idleDrop (s := { s with input := rest }) hi hc

/-- Settles O5: the decoder reads a gap, or nothing left, as NO_INPUT, which is `noOutput`. -/
theorem noInputWritesNoRegister : Obligations.NoInputWritesNoRegister := by
  refine ⟨fun s => rfl, fun s r rest h hrst hvalid => ?_, stepRunsTheDecodedRow.2⟩
  rw [stepRunsTheDecodedRow.1 s r rest h, decode_of_isGap _ _ (by simp [isGap, hrst, hvalid])]
  rfl

/-- Settles O6: the branches of R63's pseudocode, one by one. -/
theorem byteInTakesOneOfThreePaths : Obligations.ByteInTakesOneOfThreePaths := by
  intro s b ts te
  refine ⟨fun hc => if_pos hc, fun hc hi => ?_, fun hc ho => ?_⟩
  · simp [exec, execByteIn, hc, hi, noOutput]
  · simp [exec, execByteIn, hc, ho]

/-! ## The end of a packet, by the sub-decoder's answer -/

section
variable {sub : SubDecoder} {te : Time} {r : SubResult}

theorem conclude_of_err {k : ErrorKind} (he : r.err = some k) :
    conclude sub te r =
      { r.regs with sub := sub, ctrl := .idle, out := some (errorRecord k.code te r.regs) } := by
  obtain ⟨regs, err, complete⟩ := r
  cases he
  cases complete <;> rfl

theorem conclude_of_complete (he : r.err = none) (hc : r.complete = true) :
    conclude sub te r =
      { r.regs with
        sub := sub, ctrl := .idle
        out := some (if sub = .status then statusRecord te r.regs else dataRecord te r.regs) } := by
  obtain ⟨regs, err, complete⟩ := r
  cases he
  cases hc
  cases sub <;> rfl

theorem conclude_of_goesOn (he : r.err = none) (hc : r.complete = false) :
    conclude sub te r = { r.regs with sub := sub, out := none } := by
  obtain ⟨regs, err, complete⟩ := r
  cases he
  cases hc
  rfl

end

/-- R73. -/
theorem delegate_eq (sub : SubDecoder) (b : Byte) (s : State) :
    delegate sub b s = if sub = .status then statusFeed b s else dataFeed b s := by
  cases sub <;> rfl

/-- An Error record reads only registers that no sub-decoder writes. -/
theorem KeepsPacket.errorRecord_eq {s t : State} (keeps : KeepsPacket s t) (code : BitVec 3) (te : Time) :
    errorRecord code te t = errorRecord code te s := by
  simp [errorRecord, keeps.cat, keeps.tStart]

/-- Settles O7, by what the sub-decoder answers. -/
theorem forwardFeedsTheOpenPacket : Obligations.ForwardFeedsTheOpenPacket := by
  intro s b te ho hc sub r hsub hr
  have feed : packetFeed b te s = conclude sub te r := by
    rw [hr, ← delegate_eq, hsub]
    rfl
  have keeps : KeepsPacket s r.regs := by
    rw [hr, ← delegate_eq]
    exact delegate_keepsPacket sub b s
  rw [exec_forward te ho hc, feed]
  split
  next k he => rw [conclude_of_err he, keeps.errorRecord_eq]
  next he =>
    by_cases hdone : r.complete = true
    · rw [conclude_of_complete he hdone, if_pos hdone]
    · rw [conclude_of_goesOn he (by simpa using hdone), if_neg hdone]

/-! ## The step and the top-level pseudocode -/

theorem ctrl_cases (c : Ctrl) : c = .idle ∨ c = .opened := by
  cases c <;> simp

/-- A byte for an open packet is fed to it: the row that the decoder reads does what FORWARD does. -/
theorem step_eq_packetFeed {s : State} (h : isByte s.ports = true) (hc : isCat s.ports.inByte = false)
    (ho : s.ctrl = .opened) (hpos : s.sub = .none → s.pos = 0#4) :
    step s = .next (packetFeed s.ports.inByte s.ports.inTe s.takeInput) := by
  rw [step, State.row, eq_byteRecord_of_isByte h, decode_opened _ _ _ hc ho]
  exact (packetRowsAgreeWithForward s.takeInput _ _ ho hc hpos).trans (exec_forward _ ho hc)

/-- Settles O32, branch by branch of R63. Only the last branch needs an invariant, I2: an open packet with no
sub-decoder is at position 0, where the data decoder reads a header. -/
theorem stepIsTheTopLevelPseudocode : Obligations.StepIsTheTopLevelPseudocode := by
  intro s r rest hinv hin
  obtain ⟨-, fresh, -, -⟩ := hinv
  obtain rfl := State.ports_of_cons hin
  rw [← State.takeInput_of_cons hin]
  have hbyte (hrst : ¬ s.ports.rst = true) (hvalid : ¬ s.ports.inValid = false) : isByte s.ports = true := by
    simp [isByte, hrst, hvalid]
  split_ifs with hrst hvalid hc hidle
  · exact step_of_rst hrst
  · exact step_of_gap (by simp [isGap, hrst, hvalid])
  · exact step_of_frameStart (hbyte hrst hvalid) (isCat_eq_true.2 hc)
  · exact step_of_drop (hbyte hrst hvalid) (Bool.eq_false_iff.2 (hc ∘ isCat_eq_true.1)) hidle
  · have ho : s.ctrl = .opened := (ctrl_cases s.ctrl).resolve_left hidle
    exact step_eq_packetFeed (hbyte hrst hvalid) (Bool.eq_false_iff.2 (hc ∘ isCat_eq_true.1)) ho
      fun hs => (fresh ho hs).1

/-! ## The step in which a record leaves -/

/-- A move of an open packet drives a record exactly where it closes the packet (R67). -/
theorem PacketMove.out_isSome_iff {s t : State} {b : Byte} {te : Time} (m : PacketMove s b te t)
    (ho : s.ctrl = .opened) : t.out.isSome = true ↔ t.ctrl = .idle := by
  cases m with
  | signature | header | nibble => simp [ho]
  | error | statusDone | dataDone => simp [finished]

/-- Settles O41, kind of step by kind of step: only a byte for the open packet drives a record, and no other byte takes
an open packet to Idle. -/
theorem recordLeavesInTheFinishingStep : Obligations.RecordLeavesInTheFinishingStep := by
  intro s t h
  cases stepKind_of_step h with
  | reset hrst => exact ⟨fun _ hr => (by cases hr), fun _ hb => by simp [not_isByte_of_rst hrst] at hb⟩
  | gap hg => exact ⟨fun _ hr => (by cases hr), fun _ hb => by simp [not_isByte_of_isGap hg] at hb⟩
  | frameStart => exact ⟨fun _ hr => (by cases hr), fun _ _ hidle => by cases hidle⟩
  | drop _ _ hi => exact ⟨fun _ hr => (by cases hr), fun ho => by simp [hi] at ho⟩
  | packet hb hc ho m =>
    have closes := m.out_isSome_iff (s := s.takeInput) ho
    exact ⟨fun r hr => ⟨ho, hb, hc, closes.1 (by simp [hr]), m.record_span hr⟩, fun _ _ hidle => closes.2 hidle⟩

/-! ## Gaps -/

/-- A sub-decoder's answer, with the output record of its registers taken away. -/
def SubResult.noOutput (r : SubResult) : SubResult := { r with regs := Machine.noOutput r.regs }

@[simp] theorem SubResult.noOutput_ite (c : Prop) [Decidable c] (r r' : SubResult) :
    (if c then r else r').noOutput = if c then r.noOutput else r'.noOutput :=
  apply_ite SubResult.noOutput c r r'

/-- A sub-decoder does not read the record of the step before, whatever the byte and the position. -/
theorem delegate_noOutput (sub : SubDecoder) (b : Byte) (s : State) :
    delegate sub b (noOutput s) = (delegate sub b s).noOutput := by
  rw [delegate_eq, delegate_eq, statusFeed_eq, statusFeed_eq, dataFeed_eq, dataFeed_eq]
  simp only [statusPayload, statusTerm, dataHeader, dataPayload, dataTerm, SubResult.noOutput_ite]
  rfl

theorem conclude_noOutput (sub : SubDecoder) (te : Time) (r : SubResult) :
    conclude sub te r.noOutput = conclude sub te r := by
  obtain ⟨regs, err, complete⟩ := r
  cases err <;> cases complete <;> rfl

theorem packetFeed_noOutput (b : Byte) (te : Time) (s : State) : packetFeed b te (noOutput s) = packetFeed b te s := by
  rw [packetFeed, delegate_noOutput, conclude_noOutput]
  rfl

/-- One lemma for all 58 rows: no row reads the record of the step before (log entry 5). -/
theorem exec_noOutput (i : Instr) (s : State) : exec i (noOutput s) = exec i s := by
  cases i with
  | byteIn b ts te =>
    simp only [exec, execByteIn, packetFeed_noOutput]
    rfl
  | forward b te =>
    simp only [exec, execForward, packetFeed_noOutput]
    rfl
  | _ => rfl

theorem step_noOutput (s : State) : step (noOutput s) = step s := exec_noOutput s.row s.takeInput

theorem observe_noOutput (k : Nat) (s : State) : observe k (noOutput s) = observe k s := by
  cases k with
  | zero => rfl
  | succ k => simp only [observe, step_noOutput]

/-- The input with its gaps taken out. -/
def withoutGaps (l : List PortIn) : List PortIn := l.filter fun r => !isGap r

/-- A gap in front of the input delays the records that follow and changes none (R68). -/
theorem observe_succ_of_gap {k : Nat} {s : State} (h : isGap s.ports = true) :
    observe (k + 1) s = observe k s.takeInput := by
  rw [observe_succ_of_step (step_of_gap h), observe_noOutput]
  rfl

/-- The induction of O45, over the input to come. -/
theorem observe_withoutGaps (l : List PortIn) (s : State) (hin : s.input = l) :
    observe l.length s = observe (withoutGaps l).length (s.withInput (withoutGaps l)) := by
  induction l generalizing s with
  | nil => rfl
  | cons r rest ih =>
    have hports := State.ports_of_cons hin
    have htail : s.takeInput.input = rest := by simp [hin]
    by_cases hg : isGap r = true
    · have skip : withoutGaps (r :: rest) = withoutGaps rest := List.filter_cons_of_neg (by simp [hg])
      rw [List.length_cons, observe_succ_of_gap (hports ▸ hg), skip]
      exact ih s.takeInput htail
    · have keep : withoutGaps (r :: rest) = r :: withoutGaps rest := List.filter_cons_of_pos (by simpa using hg)
      obtain ⟨t, ht⟩ := stepNeverStops s
      have ht' : step (s.withInput (r :: withoutGaps rest)) = .next (t.withInput (withoutGaps rest)) :=
        stepDependsOnNoLaterInput s t r rest _ (hin ▸ ht)
      rw [keep, List.length_cons, List.length_cons, observe_succ_of_step ht, observe_succ_of_step ht',
        ih t ((step_params_input ht).2.trans htail)]
      rfl

/-- Settles O45, by induction over the input: a gap is skipped, and every other step is the same with the gaps after it
taken out. -/
theorem gapsDoNotAffectDecoding : Obligations.GapsDoNotAffectDecoding :=
  fun s => observe_withoutGaps s.input s rfl

end Sys2Proof.Machine
end

section
/-! PROOFS. The signals after a sub-decoder's answer and the record built from them. -/

namespace Sys2Proof.Machine

/-! ## The stop time -/

/-- The stop time that an answer sets, by R74's two signals. -/
theorem signalsOf_tStop (r : SubResult) (te : Time) :
    (signalsOf r te).tStop = if r.err.isSome || r.complete then some te else none :=
  stopTime_eq r.err r.complete te

/-- Settles O21, clause by clause of R74: `signalsOf_tStop` decides the stop time from the error and completion. -/
theorem stopTimeIsSetByErrorOrCompletion : Obligations.StopTimeIsSetByErrorOrCompletion := by
  intro r te
  refine ⟨rfl, fun k he => ?_, fun he hc => ?_, fun he hc => ?_⟩
  · simp [signalsOf_tStop, he]
  · simp [signalsOf_tStop, hc]
  · simp [signalsOf_tStop, he, hc]

/-! ## The record -/

section
variable {g : Signals} {sub : SubDecoder} {t : Time} {s : State}

/-- An error decides the record alone: neither the sub-decoder nor the payload is read (R76). -/
theorem buildRecord_of_err {k : ErrorKind} (he : g.err = some k) :
    buildRecord g sub t s = errorRecord k.code t s := by
  simp [buildRecord, errorRecord, he]

theorem buildRecord_of_status (he : g.err = none) :
    buildRecord g .status t s = ⟨1, 0, s.cat, 0, 0, g.value16.setWidth 32, 0, s.tStart, t⟩ := by
  simp [buildRecord, he]

theorem buildRecord_of_data (he : g.err = none) :
    buildRecord g .data t s =
      ⟨2, 0, s.cat, s.hdrLabel, s.hdrFlag, g.word32, (fclass g.word32).code, s.tStart, t⟩ := by
  simp [buildRecord, he]

end

/-- Settles O23, one lemma for each kind of record. -/
theorem recordIsBuiltFromTheFinalState : Obligations.RecordIsBuiltFromTheFinalState := by
  intro g sub t s
  refine ⟨fun k he => buildRecord_of_err he, fun he hsub => ?_, fun he hsub => ?_⟩
  · rw [hsub, buildRecord_of_status he]
  · rw [hsub, buildRecord_of_data he]

end Sys2Proof.Machine
end

section
/-! PROOFS. The rows of a status frame, and the byte outside the alphabet at a payload position of either frame. -/

namespace Sys2Proof.Machine

/-! ## The status signature -/

/-- The status header byte by its two fields (R10). -/
theorem statusHdr_eq (p : Params) : statusHdr p = p.statusLabel.setWidth 8 ||| 0x80 := rfl

/-- Settles O19: `recognize` compares the category and the whole byte. -/
theorem statusSignatureIsExact : Obligations.StatusSignatureIsExact := by
  intro p cat b
  rw [recognize_eq_true, statusHdr_eq]

/-! ## The contexts of an open packet, from its registers -/

section
variable {s : State}

theorem atStatusPayload_of_regs (ho : s.ctrl = .opened) (hs : s.sub = .status) (h1 : 1#4 ≤ s.pos)
    (h4 : s.pos ≤ 4#4) : s.context.atStatusPayload = true := by
  simp [Context.atStatusPayload, ho, hs, h1, h4]

theorem atStatusTerm_of_regs (ho : s.ctrl = .opened) (hs : s.sub = .status) (h5 : s.pos = 5#4) :
    s.context.atStatusTerm = true := by
  simp [Context.atStatusTerm, ho, hs, h5]

theorem atStatusOverrun_of_regs (ho : s.ctrl = .opened) (hs : s.sub = .status) (h6 : 6#4 ≤ s.pos) :
    s.context.atStatusOverrun = true := by
  simp [Context.atStatusOverrun, ho, hs, h6]

theorem atDataPayload_of_regs (ho : s.ctrl = .opened) (hs : s.sub = .data) (h1 : 1#4 ≤ s.pos)
    (h8 : s.pos ≤ 8#4) : s.context.atDataPayload = true := by
  simp [Context.atDataPayload, ho, hs, h1, h8]

/-! ## Each row where it is selected -/

/-- HDR_STATUS (R79). -/
theorem exec_hdrStatus (te : Time) (h : s.context.atHeader = true) (hcat : s.cat = s.params.statusSoh) :
    exec (.hdrStatus te) s = .next { s with sub := .status, pos := s.pos + 1#4, out := none } :=
  runRow_of_selected (conclude .status te (goOn (advance s))) (by simp [selected, wellFormed, inContext, h, hcat])

/-- S_PAYLOAD_NONHEX (R80). -/
theorem exec_sPayloadNonhex {b : Byte} (te : Time) (h : s.context.atStatusPayload = true) (hx : isHex b = false)
    (hc : isCat b = false) :
    exec (.sPayloadNonhex b te) s = .next (finished .status (errorRecord 1 te s) s) :=
  runRow_of_selected (statusError .nonHexPayloadByte te s) (by simp [selected, wellFormed, inContext, h, hx, hc])

/-- D_PAYLOAD_NONHEX (R86). -/
theorem exec_dPayloadNonhex {b : Byte} (te : Time) (h : s.context.atDataPayload = true) (hx : isHex b = false)
    (hc : isCat b = false) :
    exec (.dPayloadNonhex b te) s = .next (finished .data (errorRecord 1 te s) s) :=
  runRow_of_selected (dataError .nonHexPayloadByte te s) (by simp [selected, wellFormed, inContext, h, hx, hc])

/-- S_TERM_CR (R81). -/
theorem exec_sTermCr (te : Time) (h : s.context.atStatusTerm = true) :
    exec (.sTermCr te) s = .next (finished .status (statusRecord te s) s) :=
  runRow_of_selected (conclude .status te (completed (advance s))) (by simp [selected, wellFormed, inContext, h])

/-- S_TERM_OTHER (R81). -/
theorem exec_sTermOther {b : Byte} (te : Time) (h : s.context.atStatusTerm = true) (hcr : b ≠ Config.cr)
    (hc : isCat b = false) :
    exec (.sTermOther b te) s = .next (finished .status (errorRecord 2 te s) s) :=
  runRow_of_selected (statusError .wrongFrameLength te s) (by simp [selected, wellFormed, inContext, h, hcr, hc])

/-- S_OVERRUN (R82). -/
theorem exec_sOverrun {b : Byte} (te : Time) (h : s.context.atStatusOverrun = true) (hc : isCat b = false) :
    exec (.sOverrun b te) s = .next (finished .status (errorRecord 2 te s) s) :=
  runRow_of_selected (statusError .wrongFrameLength te s) (by simp [selected, wellFormed, inContext, h, hc])

/-- A packet that ends in the sub-decoder it already has keeps `sub`. -/
theorem finished_of_sub {sub : SubDecoder} (hs : s.sub = sub) (r : OutRecord) :
    finished sub r s = { s with pos := s.pos + 1#4, ctrl := .idle, out := some r } := by
  rw [finished, ← hs]

/-- A payload character of a status packet that already has its sub-decoder keeps `sub`. -/
theorem statusNibble_of_sub (hs : s.sub = .status) (n : BitVec 4) (te : Time) :
    statusNibble n te s = { s with acc := (s.acc <<< 4) ||| n.setWidth 32, pos := s.pos + 1#4, out := none } := by
  rw [statusNibble_eq, ← hs]

end

/-! ## The obligations of a status frame -/

/-- Settles O8: the signature is the first row of the header position, and its position counts from 0. -/
theorem statusSignatureSelectsTheStatusDecoder : Obligations.StatusSignatureSelectsTheStatusDecoder := by
  intro s te ho hs hpos hcat
  have hctx : s.context.atHeader = true := by simp [Context.atHeader, ho, hs]
  constructor
  · rw [decodePacket_of_sub_none _ _ _ hs, State.context_cat, hcat, decodeHeader_statusHdr]
  · rw [exec_hdrStatus te hctx hcat, hpos]
    rfl

/-- Settles O9: the sixteen hex rows are `statusHexRow` of their values. -/
theorem statusPayloadRowsShiftOrReject : Obligations.StatusPayloadRowsShiftOrReject := by
  intro s te ho hs h1 h4
  have hctx := atStatusPayload_of_regs ho hs h1 h4
  refine ⟨fun row hmem => ?_, fun b hx hc => exec_sPayloadNonhex te hctx hx hc⟩
  rw [eq_statusHexRow_of_mem hmem, exec_statusHexRow, if_pos hctx, statusNibble_of_sub hs]

/-- Settles O10, row by row. -/
theorem statusTerminatorRowsCompleteOrReject : Obligations.StatusTerminatorRowsCompleteOrReject := by
  intro s te ho hs h5
  have hctx := atStatusTerm_of_regs ho hs h5
  exact ⟨exec_sTermCr te hctx, fun b hcr hc => exec_sTermOther te hctx hcr hc⟩

/-- Settles O11: the overrun row is selected at every position from 6 on. -/
theorem statusOverrunRaisesWrongFrameLength : Obligations.StatusOverrunRaisesWrongFrameLength :=
  fun _ _ te ho hs h6 hc => exec_sOverrun te (atStatusOverrun_of_regs ho hs h6) hc

/-! ## A byte outside the alphabet -/

/-- Settles O42: in either payload context the decoder reads the byte as that frame's NONHEX row. -/
theorem nonHexPayloadByteEndsThePacket : Obligations.NonHexPayloadByteEndsThePacket := by
  intro s b ts te rest ho hpos hc hx hin
  have hnot : ¬ isHex b = true := Bool.eq_false_iff.1 hx
  rw [stepRunsTheDecodedRow.1 s _ rest hin]
  rcases hpos with ⟨hs, h1, h4⟩ | ⟨hs, h1, h8⟩
  · have hctx := atStatusPayload_of_regs ho hs h1 h4
    rw [decode_atStatusPayload _ ts te hctx hc, if_neg hnot,
      exec_sPayloadNonhex (s := { s with input := rest }) te hctx hx hc,
      finished_of_sub (s := { s with input := rest }) hs]
    rfl
  · have hctx := atDataPayload_of_regs ho hs h1 h8
    rw [decode_atDataPayload _ ts te hctx hc, if_neg hnot,
      exec_dPayloadNonhex (s := { s with input := rest }) te hctx hx hc,
      finished_of_sub (s := { s with input := rest }) hs]
    rfl

end Sys2Proof.Machine
end

section
/-! PROOFS. The rows of a data frame, the header byte byte by byte, and the label lookup. -/

namespace Sys2Proof.Machine

/-! ## The contexts of an open data packet, from its registers -/

section
variable {s : State}

theorem atHeader_of_regs (ho : s.ctrl = .opened) (hs : s.sub = .none) : s.context.atHeader = true := by
  simp [Context.atHeader, ho, hs]

theorem atDataHeader_of_regs (ho : s.ctrl = .opened) (hs : s.sub = .none) {f : BitVec 3} {l : BitVec 4}
    (hr : recognize s.params s.cat (headerByte f l) = false) : s.context.atDataHeader s.params f l = true := by
  simp [Context.atDataHeader, atHeader_of_regs ho hs, hr]

theorem atDataTerm_of_regs (ho : s.ctrl = .opened) (hs : s.sub = .data) (h9 : s.pos = 9#4) :
    s.context.atDataTerm = true := by
  simp [Context.atDataTerm, ho, hs, h9]

theorem atDataOverrun_of_regs (ho : s.ctrl = .opened) (hs : s.sub = .data) (h10 : 10#4 ≤ s.pos) :
    s.context.atDataOverrun = true := by
  simp [Context.atDataOverrun, ho, hs, h10]

/-! ## Each row of a data frame where it is selected -/

/-- HDR_NOMARKER (R85). -/
theorem exec_hdrNomarker {low : BitVec 7} (te : Time) (h : s.context.atHeader = true)
    (hc : isCat (low.setWidth 8) = false) :
    exec (.hdrNomarker low te) s = .next (finished .data (errorRecord 5 te s) s) :=
  runRow_of_selected (dataError .markerBitMissing te s) (by simp [selected, wellFormed, inContext, h, hc])

/-- HDR_BADFLAG: the label is not looked up (R85). -/
theorem exec_hdrBadflag {f : BitVec 3} {l : BitVec 4} (te : Time) (h : s.context.atDataHeader s.params f l = true)
    (hf : 5#3 < f) : exec (.hdrBadflag f l te) s = .next (finished .data (errorRecord 6 te s) s) :=
  runRow_of_selected (dataError .unknownFieldOrFlag te s)
    (by simp [selected, wellFormed, inContext, h, Config.maxFlag, hf])

/-- D_TERM_CR: every word is accepted (R87). -/
theorem exec_dTermCr (te : Time) (h : s.context.atDataTerm = true) :
    exec (.dTermCr te) s = .next (finished .data (dataRecord te s) s) :=
  runRow_of_selected (conclude .data te (completed (advance s))) (by simp [selected, wellFormed, inContext, h])

/-- D_TERM_OTHER (R87). -/
theorem exec_dTermOther {b : Byte} (te : Time) (h : s.context.atDataTerm = true) (hcr : b ≠ Config.cr)
    (hc : isCat b = false) :
    exec (.dTermOther b te) s = .next (finished .data (errorRecord 2 te s) s) :=
  runRow_of_selected (dataError .wrongFrameLength te s) (by simp [selected, wellFormed, inContext, h, hcr, hc])

/-- D_OVERRUN (R88). -/
theorem exec_dOverrun {b : Byte} (te : Time) (h : s.context.atDataOverrun = true) (hc : isCat b = false) :
    exec (.dOverrun b te) s = .next (finished .data (errorRecord 2 te s) s) :=
  runRow_of_selected (dataError .wrongFrameLength te s) (by simp [selected, wellFormed, inContext, h, hc])

/-- A payload character of a data packet that already has its sub-decoder keeps `sub`. -/
theorem dataNibble_of_sub (hs : s.sub = .data) (n : BitVec 4) (te : Time) :
    dataNibble n te s = { s with acc := (s.acc <<< 4) ||| n.setWidth 32, pos := s.pos + 1#4, out := none } := by
  rw [dataNibble_eq, ← hs]

end

/-- The header rows of the legal flag codes are those the decoder makes from the codes (R59 rows 6 and 7). -/
theorem eq_dataHeaderRow_of_mem {row : (BitVec 4 → Time → Instr) × BitVec 3} (h : row ∈ dataHeaderRows) :
    row.1 = dataHeaderRow row.2 ∧ row.2 ≤ 5#3 := by
  simp only [dataHeaderRows, List.mem_cons, List.not_mem_nil, or_false] at h
  rcases h with rfl | rfl | rfl | rfl | rfl | rfl <;> exact ⟨rfl, by decide⟩

/-- `data_header` in the order of its tests (R85). -/
theorem dataHeader_eq (b : Byte) (s : State) :
    dataHeader b s =
      if markerBit b = false then raiseErr .markerBitMissing s
      else if 5#3 < flagCode b ∨ labelDefined s.params s.cat (labelCode b) = false then raiseErr .unknownFieldOrFlag s
      else goOn (recordHeader (flagCode b) (labelCode b) s) := by
  simp only [dataHeader, Bool.not_eq_true']
  rfl

/-- What each of the three answers to a header byte makes of the packet. -/
theorem conclude_dataHeader (b : Byte) (te : Time) (s : State) :
    conclude .data te (dataHeader b (advance s)) =
      if markerBit b = false then finished .data (errorRecord 5 te s) s
      else if 5#3 < flagCode b ∨ labelDefined s.params s.cat (labelCode b) = false then
        finished .data (errorRecord 6 te s) s
      else
        { s with
          sub := .data, pos := s.pos + 1#4, hdrFlag := flagCode b, hdrLabel := labelCode b, out := none } := by
  rw [dataHeader_eq, advance_params, advance_cat]
  split_ifs
  · exact conclude_raiseErr .data .markerBitMissing te (advance s)
  · exact conclude_raiseErr .data .unknownFieldOrFlag te (advance s)
  · exact conclude_goOn .data te (recordHeader (flagCode b) (labelCode b) (advance s))

/-! ## The obligations of a data frame -/

/-- Settles O13: the decoder reads the byte as a header row, and all header rows of the data decoder answer as
`dataHeader` does. -/
theorem dataHeaderByteIsCheckedAndRecorded : Obligations.DataHeaderByteIsCheckedAndRecorded := by
  intro s b ts te rest ho hs hpos hc hr hin
  have hnext : s.pos + 1#4 = 1#4 := by rw [hpos]; rfl
  rw [stepRunsTheDecodedRow.1 s _ rest hin, decode_atHeader _ ts te (atHeader_of_regs ho hs) hc]
  refine (exec_decodeHeader_data (s := { s with input := rest }) te ho hs hc hr).trans ?_
  rw [conclude_dataHeader, hnext]
  rfl

/-- Settles O12: the six rows of the legal flag codes are `dataHeaderRow` of their codes. -/
theorem dataHeaderRowsAcceptOrReject : Obligations.DataHeaderRowsAcceptOrReject := by
  intro s te ho hs
  refine ⟨fun low hc => exec_hdrNomarker te (atHeader_of_regs ho hs) hc, fun row hmem label hr => ?_,
    fun flag label hf hr => exec_hdrBadflag te (atDataHeader_of_regs ho hs hr) hf⟩
  obtain ⟨hrow, hf⟩ := eq_dataHeaderRow_of_mem hmem
  rw [hrow, exec_dataHeaderRow hf, if_pos (atDataHeader_of_regs ho hs hr), dataHeaderLabel_eq]

/-- Settles O14: the sixteen hex rows are `dataHexRow` of their values. -/
theorem dataPayloadRowsShiftOrReject : Obligations.DataPayloadRowsShiftOrReject := by
  intro s te ho hs h1 h8
  have hctx := atDataPayload_of_regs ho hs h1 h8
  refine ⟨fun row hmem => ?_, fun b hx hc => exec_dPayloadNonhex te hctx hx hc⟩
  rw [eq_dataHexRow_of_mem hmem, exec_dataHexRow, if_pos hctx, dataNibble_of_sub hs]

/-- Settles O15, row by row. -/
theorem dataTerminatorRowsCompleteOrReject : Obligations.DataTerminatorRowsCompleteOrReject := by
  intro s te ho hs h9
  have hctx := atDataTerm_of_regs ho hs h9
  exact ⟨exec_dTermCr te hctx, fun b hcr hc => exec_dTermOther te hctx hcr hc⟩

/-- Settles O16: the overrun row is selected at every position from 10 on. -/
theorem dataOverrunRaisesWrongFrameLength : Obligations.DataOverrunRaisesWrongFrameLength :=
  fun _ _ te ho hs h10 hc => exec_dOverrun te (atDataOverrun_of_regs ho hs h10) hc

/-! ## The label lookup -/

theorem lookup_of_labelTable {p : Params} {c : Byte} {t : LabelTable} (h : labelTable p.labels c = some t)
    (l : Fin 16) : lookup p c (BitVec.ofFin l) = t[l] := by
  rw [lookup, h]
  rfl

theorem labelTable_of_not_isCat {c : Byte} (h : isCat c = false) (t : LabelTables) : labelTable t c = none := by
  have hne : ¬ (c = 0x01#8 ∨ c = 0x02#8 ∨ c = 0x03#8 ∨ c = 0x05#8) := fun hmem => by
    simp [isCat_eq_true.2 hmem] at h
  simp only [not_or] at hne
  simp [labelTable, hne]

theorem lookup_of_not_isCat {c : Byte} (h : isCat c = false) (p : Params) (l : BitVec 4) : lookup p c l = none := by
  rw [lookup, labelTable_of_not_isCat h]

/-- Settles O20: the four keys one by one, and the values beside them. -/
theorem labelLookupReadsItsOwnCategory : Obligations.LabelLookupReadsItsOwnCategory :=
  fun p l => ⟨lookup_of_labelTable rfl l, lookup_of_labelTable rfl l, lookup_of_labelTable rfl l,
    lookup_of_labelTable rfl l, fun _ hc => lookup_of_not_isCat hc p _⟩

end Sys2Proof.Machine
end

section
/-! PROOFS. Whole frames: a run over a frame is put together from its frame start, its header byte, its payload
characters and its terminator. -/

namespace Sys2Proof.Machine

/-! ## Runs with the records they emit -/

/-- `k` steps take `s` to `t` and emit the records `rs`. -/
structure Emits (k : Nat) (s t : State) (rs : List OutRecord) : Prop where
  run_eq : run k s = .next t
  observe_eq : observe k s = rs

/-- One step in front of a run. -/
theorem Emits.cons {k : Nat} {s t u : State} {rs : List OutRecord} (h : step s = .next t) (e : Emits k t u rs) :
    Emits (k + 1) s u (t.out.toList ++ rs) :=
  ⟨(run_succ_of_step h).trans e.run_eq, by rw [observe_succ_of_step h, e.observe_eq]⟩

/-- One step that drives no record, in front of a run. -/
theorem Emits.cons_quiet {k : Nat} {s t u : State} {rs : List OutRecord} (h : step s = .next t) (hout : t.out = none)
    (e : Emits k t u rs) : Emits (k + 1) s u rs := by
  simpa [hout] using e.cons h

/-- A single step that drives the record `r`. -/
theorem Emits.single {s t : State} {r : OutRecord} (h : step s = .next t) (hout : t.out = some r) :
    Emits 1 s t [r] := by
  simpa [hout] using Emits.cons h (rs := []) ⟨rfl, rfl⟩

/-! ## The nibbles of a word -/

/-- The accumulator after the nibbles `ns` have been shifted in, the first one first (R39). -/
def shiftNibbles (a : Word) (ns : List (BitVec 4)) : Word := ns.foldl (fun a n => (a <<< 4) ||| n.setWidth 32) a

/-- The low `n` nibbles of a word, the most significant first (R39, R40). -/
def lowNibbles (w : Word) : Nat → List (BitVec 4)
  | 0 => []
  | n + 1 => w.extractLsb' (4 * n) 4 :: lowNibbles w n

theorem length_lowNibbles (w : Word) (n : Nat) : (lowNibbles w n).length = n := by
  induction n with
  | zero => rfl
  | succ n ih => rw [lowNibbles, List.length_cons, ih]

/-- The next lower nibble joins the bits of the word above it. -/
theorem shift_or_nibble (w : Word) (n : Nat) :
    (w >>> (4 * (n + 1))) <<< 4 ||| (w.extractLsb' (4 * n) 4).setWidth 32 = w >>> (4 * n) := by
  apply BitVec.eq_of_getLsbD_eq
  intro i hi
  by_cases h : i < 4
  · simp [hi, h]
  · have above : 4 * (n + 1) + (i - 4) = 4 * n + i := by omega
    simp [hi, h, above]

/-- From the bits above the low `n` nibbles, shifting these in gives the whole word. -/
theorem shiftNibbles_lowNibbles (w : Word) (n : Nat) : shiftNibbles (w >>> (4 * n)) (lowNibbles w n) = w := by
  induction n with
  | zero => rw [Nat.mul_zero, BitVec.ushiftRight_zero, lowNibbles, shiftNibbles, List.foldl_nil]
  | succ n ih => rwa [lowNibbles, shiftNibbles, List.foldl_cons, shift_or_nibble]

/-- A word of at most `n` nibbles is what shifting them into an empty accumulator gives. -/
theorem shiftNibbles_zero {w : Word} {n : Nat} (h : w.toNat < 2 ^ (4 * n)) : shiftNibbles 0#32 (lowNibbles w n) = w := by
  have empty : w >>> (4 * n) = 0#32 := by
    apply BitVec.eq_of_toNat_eq
    rw [BitVec.toNat_ushiftRight, Nat.shiftRight_eq_div_pow, Nat.div_eq_of_lt h]
    rfl
  rw [← empty, shiftNibbles_lowNibbles]

/-- The payload characters of a data frame are the eight nibbles of its word (R62). -/
theorem word32Chars_eq (w : Word) : word32Chars w = (lowNibbles w 8).map hexChar := rfl

/-- The bits of a status value stay where they are when it is zero-extended. -/
theorem extractLsb'_setWidth_half (v : Half) (k n : Nat) : (v.setWidth 32).extractLsb' k n = v.extractLsb' k n := by
  apply BitVec.eq_of_getLsbD_eq
  intro i hi
  by_cases h : k + i < 32
  · simp [h]
  · simp [h, BitVec.getLsbD_of_ge v (k + i) (by omega)]

/-- The payload characters of a status frame are the low four nibbles of its value (R62). -/
theorem value16Chars_eq (v : Half) : value16Chars v = (lowNibbles (v.setWidth 32) 4).map hexChar := by
  simp only [value16Chars, lowNibbles, extractLsb'_setWidth_half, List.map_cons, List.map_nil]

/-! ## One byte of a frame -/

/-- The position at which the sub-decoder reads the terminator (R58). -/
def terminatorPos : SubDecoder → Nat
  | .none => 0
  | .status => 5
  | .data => 9

theorem terminatorPos_le (sub : SubDecoder) : terminatorPos sub ≤ 9 := by cases sub <;> decide

/-- The record of a packet whose sub-decoder completes (R76). -/
def completedRecord (te : Time) (s : State) : OutRecord :=
  if s.sub = .status then statusRecord te s else dataRecord te s

section
variable {s : State} {rest : List PortIn}

theorem step_frameStart {b : Byte} {ts te : Time} (hc : isCat b = true) (hin : s.input = byteRecord b ts te :: rest) :
    step s = .next (openPacket b ts { s with input := rest }) := by
  rw [stepRunsTheDecodedRow.1 s _ rest hin, decode_frameStart _ _ ts te hc, exec_frameStartRow hc]

theorem step_statusHdr {ts te : Time} (ho : s.ctrl = .opened) (hs : s.sub = .none) (hcat : s.cat = s.params.statusSoh)
    (hin : s.input = byteRecord (statusHdr s.params) ts te :: rest) :
    step s = .next { s with sub := .status, pos := s.pos + 1#4, out := none, input := rest } := by
  have hc := isCat_of_markerBit (markerBit_statusHdr s.params)
  have signature : recognize s.params s.context.cat (statusHdr s.params) = true := recognize_eq_true.2 ⟨hcat, rfl⟩
  rw [stepRunsTheDecodedRow.1 s _ rest hin, decode_atHeader _ ts te (atHeader_of_regs ho hs) hc, decodeHeader,
    if_pos signature]
  exact exec_hdrStatus (s := { s with input := rest }) te (atHeader_of_regs ho hs) hcat

theorem step_headerByte {f : BitVec 3} {l : BitVec 4} {ts te : Time} (ho : s.ctrl = .opened) (hs : s.sub = .none)
    (hf : f ≤ 5#3) (hl : labelDefined s.params s.cat l = true) (hr : recognize s.params s.cat (headerByte f l) = false)
    (hin : s.input = byteRecord (headerByte f l) ts te :: rest) :
    step s = .next
      { s with sub := .data, pos := s.pos + 1#4, hdrFlag := f, hdrLabel := l, out := none, input := rest } := by
  have hctx := atDataHeader_of_regs ho hs hr
  have legal : ¬ Config.maxFlag < f := BitVec.not_lt.2 hf
  rw [stepRunsTheDecodedRow.1 s _ rest hin, decode_atDataHeader _ ts te hctx, if_neg legal]
  refine ((exec_dataHeaderRow hf l te { s with input := rest }).trans (if_pos hctx)).trans ?_
  rw [dataHeaderLabel_eq, if_pos hl]

/-- A packet that has consumed its header and not yet its whole payload. -/
theorem payload_cases (h1 : 1#4 ≤ s.pos) (hend : s.pos.toNat < terminatorPos s.sub) :
    s.sub = .status ∧ s.pos ≤ 4#4 ∨ s.sub = .data ∧ s.pos ≤ 8#4 := by
  cases hs : s.sub <;> rw [hs, terminatorPos] at hend
  case none => omega
  case status => exact .inl ⟨rfl, by bv_omega⟩
  case data => exact .inr ⟨rfl, by bv_omega⟩

/-- A packet that waits for its terminator. -/
theorem terminator_cases (h1 : 1#4 ≤ s.pos) (hend : s.pos.toNat = terminatorPos s.sub) :
    s.sub = .status ∧ s.pos = 5#4 ∨ s.sub = .data ∧ s.pos = 9#4 := by
  cases hs : s.sub <;> rw [hs, terminatorPos] at hend
  case none => bv_omega
  case status => exact .inl ⟨rfl, by bv_omega⟩
  case data => exact .inr ⟨rfl, by bv_omega⟩

/-- A character of the alphabet at a payload position of either frame: its nibble is shifted in (R80, R86). -/
theorem step_hexChar {n : BitVec 4} {ts te : Time} (ho : s.ctrl = .opened) (h1 : 1#4 ≤ s.pos)
    (hend : s.pos.toNat < terminatorPos s.sub) (hin : s.input = byteRecord (hexChar n) ts te :: rest) :
    step s = .next
      { s with acc := (s.acc <<< 4) ||| n.setWidth 32, pos := s.pos + 1#4, out := none, input := rest } := by
  rw [stepRunsTheDecodedRow.1 s _ rest hin]
  rcases payload_cases h1 hend with ⟨hs, h4⟩ | ⟨hs, h8⟩
  · have hctx := atStatusPayload_of_regs ho hs h1 h4
    rw [decode_atStatusPayload _ ts te hctx (isCat_hexChar n), if_pos (isHex_hexChar n), nib_hexChar]
    refine ((exec_statusHexRow n te { s with input := rest }).trans (if_pos hctx)).trans ?_
    rw [statusNibble_of_sub (s := { s with input := rest }) hs]
  · have hctx := atDataPayload_of_regs ho hs h1 h8
    rw [decode_atDataPayload _ ts te hctx (isCat_hexChar n), if_pos (isHex_hexChar n), nib_hexChar]
    refine ((exec_dataHexRow n te { s with input := rest }).trans (if_pos hctx)).trans ?_
    rw [dataNibble_of_sub (s := { s with input := rest }) hs]

/-- CR at the terminator position of either frame: the packet completes (R81, R87). -/
theorem step_cr {ts te : Time} (ho : s.ctrl = .opened) (h1 : 1#4 ≤ s.pos) (hend : s.pos.toNat = terminatorPos s.sub)
    (hin : s.input = byteRecord Config.cr ts te :: rest) :
    step s = .next (finished s.sub (completedRecord te s) { s with input := rest }) := by
  rw [stepRunsTheDecodedRow.1 s _ rest hin]
  rcases terminator_cases h1 hend with ⟨hs, h5⟩ | ⟨hs, h9⟩
  · have hctx := atStatusTerm_of_regs ho hs h5
    rw [decode_atStatusTerm _ ts te hctx isCat_cr, if_pos rfl]
    refine (exec_sTermCr (s := { s with input := rest }) te hctx).trans ?_
    rw [completedRecord, if_pos hs, hs]
    rfl
  · have hctx := atDataTerm_of_regs ho hs h9
    rw [decode_atDataTerm _ ts te hctx isCat_cr, if_pos rfl]
    refine (exec_dTermCr (s := { s with input := rest }) te hctx).trans ?_
    rw [completedRecord, if_neg (by simp [hs]), hs]
    rfl

end

/-! ## From the header to the record -/

/-- The characters of `ns` and the terminator, from a position that leaves room for just these, finish the packet with
the record of the shifted accumulator. By induction on the characters still to come. -/
theorem emits_payload (ns : List (BitVec 4)) (ts te : Nat → Time) (rest : List PortIn) (k : Nat) (s : State)
    (ho : s.ctrl = .opened) (h1 : 1#4 ≤ s.pos) (hlen : s.pos.toNat + ns.length = terminatorPos s.sub)
    (hin : s.input = streamFrom ts te k (ns.map hexChar ++ [Config.cr]) ++ rest) :
    ∃ t, Emits (ns.length + 1) s t [completedRecord (te (k + ns.length)) { s with acc := shiftNibbles s.acc ns }] ∧
      t.ctrl = .idle ∧ t.input = rest := by
  induction ns generalizing k s with
  | nil => exact ⟨_, .single (step_cr ho h1 hlen hin) rfl, rfl, rfl⟩
  | cons n ns ih =>
    have hmax := terminatorPos_le s.sub
    rw [List.length_cons] at hlen
    have hstep := step_hexChar ho h1 (by omega) hin
    obtain ⟨t, emits, ht⟩ := ih (k + 1) { s with
        acc := (s.acc <<< 4) ||| n.setWidth 32, pos := s.pos + 1#4, out := none
        input := streamFrom ts te (k + 1) (ns.map hexChar ++ [Config.cr]) ++ rest }
      ho (by bv_omega) (by rw [← hlen]; bv_omega) rfl
    refine ⟨t, ?_, ht⟩
    rw [List.length_cons, show k + (ns.length + 1) = k + 1 + ns.length by omega]
    exact .cons_quiet hstep rfl emits

/-- The packet of a frame, once its header byte has been read: the nibbles of `w` and the terminator are still to come. -/
theorem emits_lowNibbles {w : Word} {n : Nat} (ts te : Nat → Time) (rest : List PortIn) (s : State)
    (ho : s.ctrl = .opened) (hpos : s.pos = 1#4) (hacc : s.acc = 0#32) (hlen : 1 + n = terminatorPos s.sub)
    (hw : w.toNat < 2 ^ (4 * n))
    (hin : s.input = streamFrom ts te 2 ((lowNibbles w n).map hexChar ++ [Config.cr]) ++ rest) :
    ∃ t, Emits (n + 1) s t [completedRecord (te (2 + n)) { s with acc := w }] ∧
      t.ctrl = .idle ∧ t.input = rest := by
  have emits := emits_payload (lowNibbles w n) ts te rest 2 s ho (by rw [hpos]; decide)
    (by rw [hpos, length_lowNibbles, ← hlen]; rfl) hin
  rwa [hacc, shiftNibbles_zero hw, length_lowNibbles] at emits

/-! ## The first two bytes -/

section
variable {k : Nat} {s u : State} {rs : List OutRecord} {ts te ts' te' : Time} {body : List PortIn}

/-- A run of a status packet, with the frame start and the signature in front of it. -/
theorem Emits.of_statusOpening (hcat : isCat s.params.statusSoh = true)
    (hin : s.input = byteRecord s.params.statusSoh ts te :: byteRecord (statusHdr s.params) ts' te' :: body)
    (e : Emits k { openPacket s.params.statusSoh ts s with sub := .status, pos := 1#4, input := body } u rs) :
    Emits (k + 2) s u rs := by
  have hstart := step_frameStart hcat hin
  exact .cons_quiet hstart rfl (.cons_quiet (step_statusHdr rfl rfl rfl rfl) rfl e)

/-- A run of a data packet, with the frame start and an accepted header in front of it. -/
theorem Emits.of_dataOpening {c : Byte} {f : BitVec 3} {l : BitVec 4} (hcat : isCat c = true) (hf : f ≤ 5#3)
    (hl : labelDefined s.params c l = true) (hr : recognize s.params c (headerByte f l) = false)
    (hin : s.input = byteRecord c ts te :: byteRecord (headerByte f l) ts' te' :: body)
    (e : Emits k
      { openPacket c ts s with sub := .data, pos := 1#4, hdrFlag := f, hdrLabel := l, input := body } u rs) :
    Emits (k + 2) s u rs := by
  have hstart := step_frameStart hcat hin
  exact .cons_quiet hstart rfl (.cons_quiet (step_headerByte rfl rfl hf hl hr rfl) rfl e)

end

/-! ## The obligations of whole frames -/

/-- Settles O43: after the frame start and the signature, the four characters are the nibbles of the zero-extended
value. -/
theorem statusFrameDecodesToItsValue : Obligations.StatusFrameDecodesToItsValue := by
  intro s v ts te rest hcat hin
  rw [statusForm, value16Chars_eq, List.append_assoc] at hin
  have hw : (v.setWidth 32).toNat < 2 ^ (4 * 4) := by
    rw [BitVec.toNat_setWidth_of_le (by decide)]
    exact v.isLt
  obtain ⟨t, emits, ht⟩ := emits_lowNibbles ts te rest
    { openPacket s.params.statusSoh (ts 0) s with sub := .status, pos := 1#4, input := _ } rfl rfl rfl rfl hw rfl
  have frame := Emits.of_statusOpening hcat hin emits
  have value : (v.setWidth 32).extractLsb' 0 16 = v := by rw [extractLsb'_setWidth_half, BitVec.extractLsb'_eq_self]
  refine ⟨frame.observe_eq.trans ?_, t, frame.run_eq, ht⟩
  rw [completedRecord, if_pos rfl, statusRecord, value]
  rfl

/-- Settles O44: after the frame start and the header, the eight characters are the nibbles of the word. -/
theorem dataFrameDecodesToItsWord : Obligations.DataFrameDecodesToItsWord := by
  intro s c f l w ts te rest hcat hf hl hr hin
  rw [dataForm, word32Chars_eq, List.append_assoc] at hin
  obtain ⟨t, emits, ht⟩ := emits_lowNibbles (w := w) (n := 8) ts te rest
    { openPacket c (ts 0) s with sub := .data, pos := 1#4, hdrFlag := f, hdrLabel := l, input := _ }
    rfl rfl rfl rfl w.isLt rfl
  have frame := Emits.of_dataOpening hcat hf hl hr hin emits
  exact ⟨frame.observe_eq, t, frame.run_eq, ht⟩

end Sys2Proof.Machine
end

section
/-! PROOFS. The reading of a data word: its fields determine it, its class is a condition on them, and the value it
denotes determines it. -/

namespace Sys2Proof.Machine

/-! ## The fields of a word -/

/-- Sign, exponent and fraction are all of a word (R90). -/
theorem eq_of_fields_eq {v w : Word} (hs : signBit v = signBit w) (he : exponentField v = exponentField w)
    (hf : fractionField v = fractionField w) : v = w := by
  apply BitVec.eq_of_getLsbD_eq
  intro i hi
  rcases (by omega : i < 23 ∨ 23 ≤ i ∧ i < 31 ∨ i = 31) with h | ⟨h, h'⟩ | rfl
  · simpa [fractionField, h] using congrArg (·.getLsbD i) hf
  · have here : 23 + (i - 23) = i := by omega
    simpa [exponentField, here, show i - 23 < 8 by omega] using congrArg (·.getLsbD (i - 23)) he
  · exact hs

theorem fractionField_getLsbD_22 (w : Word) : (fractionField w).getLsbD 22 = w.getLsbD 22 := by
  simp [fractionField]

/-- A fraction with its highest bit set is not 0. -/
theorem fractionField_ne_zero {w : Word} (h : w.getLsbD 22 = true) : fractionField w ≠ 0#23 := by
  intro hf
  rw [← fractionField_getLsbD_22, hf, BitVec.getLsbD_zero] at h
  cases h

theorem exponentField_range (e : BitVec 8) : 1#8 ≤ e ∧ e ≤ 254#8 ↔ e ≠ 0#8 ∧ e ≠ 255#8 := by bv_omega

/-! ## The classes -/

/-- The condition of each class on the fields of the word (R91). -/
def FClass.Condition (w : Word) : FClass → Prop
  | .zero => exponentField w = 0#8 ∧ fractionField w = 0#23
  | .subnormal => exponentField w = 0#8 ∧ fractionField w ≠ 0#23
  | .normal => 1#8 ≤ exponentField w ∧ exponentField w ≤ 254#8
  | .infinity => exponentField w = 255#8 ∧ fractionField w = 0#23
  | .qnan => exponentField w = 255#8 ∧ w.getLsbD 22 = true
  | .snan => exponentField w = 255#8 ∧ w.getLsbD 22 = false ∧ fractionField w ≠ 0#23

/-- The tests of `fclass`, in their order, lead to a class whose condition holds. -/
theorem condition_fclass (w : Word) : (fclass w).Condition w := by
  unfold fclass
  rw [fractionField_getLsbD_22]
  split_ifs with he hf he' hf hq
  · exact ⟨he, hf⟩
  · exact ⟨he, hf⟩
  · exact ⟨he', hf⟩
  · exact ⟨he', hq⟩
  · exact ⟨he', Bool.eq_false_iff.2 hq, hf⟩
  · exact (exponentField_range _).2 ⟨he, he'⟩

/-- A word whose fields meet the condition of a class is of that class. -/
theorem fclass_of_condition {w : Word} {c : FClass} (h : c.Condition w) : fclass w = c := by
  unfold fclass
  rw [fractionField_getLsbD_22]
  cases c with
  | zero | subnormal | infinity =>
    obtain ⟨he, hf⟩ := h
    simp [he, hf]
  | normal =>
    obtain ⟨he, he'⟩ := (exponentField_range _).1 h
    simp [he, he']
  | qnan =>
    obtain ⟨he, hq⟩ := h
    rw [if_neg (by simp [he]), if_pos he, if_neg (fractionField_ne_zero hq), if_pos hq]
  | snan =>
    obtain ⟨he, hq, hf⟩ := h
    rw [if_neg (by simp [he]), if_pos he, if_neg hf, if_neg (Bool.eq_false_iff.1 hq)]

theorem fclass_eq_iff {w : Word} {c : FClass} : fclass w = c ↔ c.Condition w :=
  ⟨fun h => h ▸ condition_fclass w, fclass_of_condition⟩

/-- No two classes share a code (R91). -/
theorem FClass.code_inj {c d : FClass} : c.code = d.code ↔ c = d := by
  cases c <;> cases d <;> decide

theorem code_fclass_eq_iff {w : Word} (c : FClass) : (fclass w).code = c.code ↔ c.Condition w :=
  FClass.code_inj.trans fclass_eq_iff

/-- Settles O52: each code is one class's, and `fclass` is the class whose condition holds. -/
theorem floatClassesAreTheirConditions : Obligations.FloatClassesAreTheirConditions :=
  fun _ => ⟨code_fclass_eq_iff .zero, code_fclass_eq_iff .subnormal, code_fclass_eq_iff .normal,
    code_fclass_eq_iff .infinity, code_fclass_eq_iff .qnan, code_fclass_eq_iff .snan⟩

/-! ## The value of a finite word -/

theorem floatValue_of_subnormal {w : Word} (h : fclass w = .subnormal) :
    floatValue w = .finite (signFactor (signBit w) * (fractionField w).toNat * (2 : Rat) ^ (-149 : Int)) := by
  have scale : (2 : Rat) ^ (-149 : Int) = 2 ^ (-126 : Int) / 2 ^ 23 := by norm_num
  rw [floatValue, h, scale]
  refine congrArg FloatValue.finite ?_
  ring

theorem floatValue_of_normal {w : Word} (h : fclass w = .normal) :
    floatValue w = .finite (signFactor (signBit w) * (2 ^ 23 + (fractionField w).toNat) *
      (2 : Rat) ^ ((exponentField w).toNat - 150 : Int)) := by
  have scale : (2 : Rat) ^ ((exponentField w).toNat - 127 : Int) =
      2 ^ ((exponentField w).toNat - 150 : Int) * 2 ^ 23 := by
    rw [← zpow_natCast, ← zpow_add₀ two_ne_zero]
    congr 1
    norm_num
    ring
  rw [floatValue, h, scale]
  refine congrArg FloatValue.finite ?_
  ring

/-- Settles O53: the power of two that divides the fraction joins that of the exponent. -/
theorem finiteWordsAreScaledIntegers : Obligations.FiniteWordsAreScaledIntegers :=
  fun _ => ⟨floatValue_of_subnormal, floatValue_of_normal⟩

/-! ## A value's only word -/

/-- The magnitude of a finite word with exponent field `e` and fraction field `f`, in units of 2^-149. -/
def magnitude (e f : Nat) : Nat := if e = 0 then f else (2 ^ 23 + f) * 2 ^ (e - 1)

theorem magnitude_lt {e f : Nat} (hf : f < 2 ^ 23) : magnitude e f < 2 ^ 23 * 2 ^ e := by
  unfold magnitude
  split
  next he => simpa [he] using hf
  next he =>
    obtain ⟨e, rfl⟩ := Nat.exists_eq_succ_of_ne_zero he
    calc (2 ^ 23 + f) * 2 ^ (e + 1 - 1) < (2 ^ 23 + 2 ^ 23) * 2 ^ e :=
          Nat.mul_lt_mul_of_pos_right (by omega) (by positivity)
      _ = 2 ^ 23 * 2 ^ (e + 1) := by ring

theorem le_magnitude_succ (e f : Nat) : 2 ^ 23 * 2 ^ e ≤ magnitude (e + 1) f := by
  rw [magnitude, if_neg e.succ_ne_zero, Nat.add_sub_cancel]
  exact Nat.mul_le_mul_right _ (Nat.le_add_right _ _)

/-- The exponent field orders the magnitudes before the fraction field does. -/
theorem magnitude_lt_of_lt {e e' f f' : Nat} (hf : f < 2 ^ 23) (he : e < e') : magnitude e f < magnitude e' f' := by
  obtain ⟨d, rfl⟩ := Nat.exists_eq_add_of_lt he
  calc
    magnitude e f < 2 ^ 23 * 2 ^ e := magnitude_lt hf
    _ ≤ 2 ^ 23 * 2 ^ (e + d) := Nat.mul_le_mul_left _ (Nat.pow_le_pow_right two_pos (Nat.le_add_right _ _))
    _ ≤ magnitude (e + d + 1) f' := le_magnitude_succ _ _

theorem magnitude_inj {e e' f f' : Nat} (hf : f < 2 ^ 23) (hf' : f' < 2 ^ 23) (h : magnitude e f = magnitude e' f') :
    e = e' ∧ f = f' := by
  rcases lt_trichotomy e e' with he | rfl | he
  · exact absurd h (magnitude_lt_of_lt hf he).ne
  · unfold magnitude at h
    split at h
    · exact ⟨rfl, h⟩
    · exact ⟨rfl, Nat.add_left_cancel (Nat.eq_of_mul_eq_mul_right (by positivity) h)⟩
  · exact absurd h (magnitude_lt_of_lt hf' he).ne'

/-- The magnitude of a word's exponent and fraction. -/
def wordMagnitude (w : Word) : Nat := magnitude (exponentField w).toNat (fractionField w).toNat

/-- The fields that a word needs to denote a value (R92). -/
def Denotes (w : Word) : FloatValue → Prop
  | .zero negative => signBit w = negative ∧ exponentField w = 0#8 ∧ fractionField w = 0#23
  | .finite v => 0 < wordMagnitude w ∧ v = signFactor (signBit w) * wordMagnitude w * (2 : Rat) ^ (-149 : Int)
  | .infinity negative => signBit w = negative ∧ exponentField w = 255#8 ∧ fractionField w = 0#23
  | .nan negative fraction => signBit w = negative ∧ exponentField w = 255#8 ∧ fractionField w = fraction

theorem denotes_floatValue (w : Word) : Denotes w (floatValue w) := by
  have hc := condition_fclass w
  cases h : fclass w <;> rw [h] at hc
  case zero | infinity =>
    obtain ⟨he, hf⟩ := hc
    simp [floatValue, h, Denotes, he, hf]
  case qnan | snan =>
    obtain ⟨he, -⟩ := hc
    simp [floatValue, h, Denotes, he]
  case subnormal =>
    obtain ⟨he, hf⟩ := hc
    have mag : wordMagnitude w = (fractionField w).toNat := by simp [wordMagnitude, magnitude, he]
    rw [floatValue_of_subnormal h, Denotes, mag]
    exact ⟨Nat.pos_of_ne_zero fun h0 => hf (BitVec.eq_of_toNat_eq h0), rfl⟩
  case normal =>
    obtain ⟨he, -⟩ := hc
    obtain ⟨e, he⟩ := Nat.exists_eq_add_of_le (show 1 ≤ (exponentField w).toNat by bv_omega)
    have mag : wordMagnitude w = (2 ^ 23 + (fractionField w).toNat) * 2 ^ e := by simp [wordMagnitude, magnitude, he]
    have scale : (2 : Rat) ^ ((exponentField w).toNat - 150 : Int) = 2 ^ e * 2 ^ (-149 : Int) := by
      rw [← zpow_natCast, ← zpow_add₀ two_ne_zero, he]
      congr 1
      push_cast
      ring
    rw [floatValue_of_normal h, Denotes, mag, scale]
    refine ⟨by positivity, ?_⟩
    push_cast
    ring

/-- A sign and a positive magnitude are determined by their product. -/
theorem signFactor_mul_inj {a b : Bool} {m n : Nat} (hm : 0 < m) (hn : 0 < n)
    (h : signFactor a * m = signFactor b * n) : a = b ∧ m = n := by
  have opposite : (m : Rat) ≠ -n := by
    have : (0 : Rat) < m + n := by positivity
    exact fun e => by linarith
  match a, b, h with
  | false, false, h | true, true, h => exact ⟨rfl, by simpa [signFactor] using h⟩
  | false, true, h => exact absurd (by simpa [signFactor] using h) opposite
  | true, false, h => exact absurd (by simpa [signFactor, neg_eq_iff_eq_neg] using h) opposite

/-- The case split of O54: the value tells the fields, or a finite word's sign and magnitude, which tell its fields. -/
theorem eq_of_denotes {v w : Word} {x : FloatValue} (hv : Denotes v x) (hw : Denotes w x) : v = w := by
  cases x with
  | zero | infinity | nan =>
    obtain ⟨hs, he, hf⟩ := hv
    obtain ⟨hs', he', hf'⟩ := hw
    exact eq_of_fields_eq (hs.trans hs'.symm) (he.trans he'.symm) (hf.trans hf'.symm)
  | finite q =>
    obtain ⟨hm, hq⟩ := hv
    obtain ⟨hm', hq'⟩ := hw
    obtain ⟨hs, hmag⟩ := signFactor_mul_inj hm hm' (mul_right_cancel₀ (by positivity) (hq.symm.trans hq'))
    obtain ⟨he, hf⟩ := magnitude_inj (fractionField v).isLt (fractionField w).isLt hmag
    exact eq_of_fields_eq hs (BitVec.eq_of_toNat_eq he) (BitVec.eq_of_toNat_eq hf)

/-- Settles O54: both words denote the one value. -/
theorem distinctWordsDenoteDistinctValues : Obligations.DistinctWordsDenoteDistinctValues :=
  fun v w h => eq_of_denotes (denotes_floatValue v) (h ▸ denotes_floatValue w)

end Sys2Proof.Machine
end

section
/-! PROOFS. The end of a packet by an error. -/

namespace Sys2Proof.Machine

/-- Settles O22: `conclude_of_err` closes the packet by the error alone, and it does not ask whether the answer is
complete (D7). -/
theorem errorEndsThePacketAtOnce : Obligations.ErrorEndsThePacketAtOnce :=
  fun _ _ _ _ he => conclude_of_err he

end Sys2Proof.Machine
end

section
/-! PROOFS. A reset, and the input records that write no register: the end of the input, the gaps, and the bytes dropped
while Idle. -/

namespace Sys2Proof.Machine

/-! ## Reset -/

/-- Settles O2: whatever else the ports show, rst = 1 is read as RESET, which is `resetRegisters`. -/
theorem resetRowRestoresEveryRegister : Obligations.ResetRowRestoresEveryRegister := by
  refine ⟨fun s => rfl, fun s r rest h hrst => ?_⟩
  have hports : s.ports.rst = true := by rw [State.ports_of_cons h, hrst]
  rw [step_of_rst hports, State.takeInput_of_cons h]
  rfl

/-! ## Input records that write no register -/

/-- The input record `r` writes no register of a state whose control state is `c`: it is a gap (R68), or a byte outside
CATS while Idle (R65). -/
def IsIgnored (c : Ctrl) (r : PortIn) : Prop :=
  isGap r = true ∨ c = .idle ∧ isByte r = true ∧ isCat r.inByte = false

theorem step_of_isIgnored {s : State} (h : IsIgnored s.ctrl s.ports) : step s = .next (noOutput s.takeInput) := by
  obtain hg | ⟨hi, hb, hc⟩ := h
  · exact step_of_gap hg
  · exact step_of_drop hb hc hi

/-- The port values of the next step are the first record of the input, or past its end a gap (log entry 3). -/
theorem isIgnored_ports {s : State} {k : Nat} (h : ∀ r ∈ s.input.take (k + 1), IsIgnored s.ctrl r) :
    IsIgnored s.ctrl s.ports := by
  cases hin : s.input with
  | nil =>
    rw [State.ports_of_nil hin]
    exact .inl rfl
  | cons r rest =>
    rw [State.ports_of_cons hin]
    exact h r (by simp [hin])

/-- While the next `k` records, as far as the input reaches, are ignored, `k` steps only take them: the control state
stays as it is, so the records after the first are ignored as well. -/
theorem emits_nothing_of_isIgnored (k : Nat) (s : State) (h : ∀ r ∈ s.input.take k, IsIgnored s.ctrl r) :
    Emits k (noOutput s) (noOutput (s.withInput (s.input.drop k))) [] := by
  induction k generalizing s with
  | zero => exact ⟨rfl, rfl⟩
  | succ k ih =>
    have first : step (noOutput s) = .next (noOutput s.takeInput) :=
      (step_noOutput s).trans (step_of_isIgnored (isIgnored_ports h))
    have later : ∀ r ∈ s.input.tail.take k, IsIgnored s.ctrl r := fun r hr =>
      h r (List.mem_of_mem_tail (by rwa [List.tail_take_eq_take_tail]))
    rw [← List.drop_tail]
    exact .cons_quiet first rfl (ih s.takeInput later)

/-- A run of at least one step does not depend on the output record of the state it starts in. -/
theorem Emits.of_noOutput {k : Nat} {s t : State} {rs : List OutRecord} (e : Emits (k + 1) (noOutput s) t rs) :
    Emits (k + 1) s t rs :=
  ⟨by simpa only [run, step_noOutput] using e.run_eq, (observe_noOutput (k + 1) s).symm.trans e.observe_eq⟩

/-! ## The obligations about ignored input -/

/-- Settles O48: with no input left there is no record that could be other than ignored. -/
theorem endOfStreamEmitsNothing : Obligations.EndOfStreamEmitsNothing := by
  intro s k hin
  have quiet (n : Nat) : Emits n (noOutput s) (noOutput s) [] := by
    have e := emits_nothing_of_isIgnored n s (by simp [hin])
    rwa [hin, List.drop_nil, ← hin] at e
  exact ⟨(observe_noOutput k s).symm.trans (quiet k).observe_eq, (quiet (k + 1)).of_noOutput.run_eq⟩

/-- Settles O49: an Idle state ignores each of the next `k + 1` records. -/
theorem bytesBeforeAFrameStartAreDropped : Obligations.BytesBeforeAFrameStartAreDropped := by
  intro s k hi _ h
  have ignored : ∀ r ∈ s.input.take (k + 1), IsIgnored s.ctrl r := fun r hr => (h r hr).imp_right (⟨hi, ·⟩)
  have e := (emits_nothing_of_isIgnored (k + 1) s ignored).of_noOutput
  exact ⟨e.observe_eq, e.run_eq⟩

end Sys2Proof.Machine
end
